-- ==== Sys2Proof/Word.lean ====
section
/-! DEFINITION. The plain types of the model: bytes and text. -/

namespace Sys2Proof

/-- A byte, bit 7 most significant (00_scope.md R8). -/
abbrev Byte := BitVec 8

/-- A string of the text-form unit, as its sequence of characters (42_text_form.md R202). -/
abbrev Text := List Char

end Sys2Proof
end

