-- ==== Sys2Proof/Config.lean ====
section
/-! DEFINITION. The configuration parameters of 00_scope.md R5, and the two free values of the model. -/

namespace Sys2Proof

/-- A declared parameter count: 0, 1 or 2 (R5). -/
inductive ParamCount where
  | zero
  | one
  | two
deriving DecidableEq, Repr

/-- The configuration (R5, R252). A table is a finite list of (argument, entry) pairs whose first match counts; an argument
that is not listed has no entry, so every table of R5 can be written and every lookup is total (20_memory.md R55). -/
structure Config where
  /-- `P_PCOUNT`: the declared parameter count of each defined opcode byte. -/
  pCount : List (BitVec 8 × ParamCount)
  /-- `P_MNEMONIC`: the mnemonic of an opcode byte, used only by IFMT. -/
  mnemonic : List (BitVec 8 × Text)
  /-- `P_REGNAME`: the name of a register index, used only by PFMT. -/
  regName : List (BitVec 32 × Text)
  /-- `P_LABEL_ORDINAL` is 7 plus this, so that it lies in 7..15 (30_encoding.md R62). -/
  labelOffset : Fin 9
  /-- `P_LEGACY_MODE_GATE` (30_encoding.md R77). -/
  legacyModeGate : Bool
deriving DecidableEq, Repr

/-- FREE VALUE (log 8): whether, at the n-th occasion, a byte of another caller's unfinished commit lands (20_memory.md R50,
92_eei_decisions.md D18). It has no body: nothing can be proved of its values. -/
opaque Config.commitLands : Nat → Bool

/-- FREE VALUE (log 7): the byte a window shows, at the n-th occasion, where it passes the end of the caller's buffer; no rule
states it. It has no body: nothing can be proved of its values. -/
opaque Config.outsideByte : Nat → Byte

end Sys2Proof
end

