-- ==== Sys2Proof/Syntax.lean ====
section
/-! DEFINITION. The syntax of TXED: addressing modes, the structural instruction value of 10_state.md R21, the status and
slot codes, and `Instr`, one constructor per row of spec/opcode_table.json. -/

namespace Sys2Proof

/-- The concrete (encodable) addressing modes, tags 0 to 6 (30_encoding.md R61). -/
inductive ConcreteMode where
  | constant8
  | constant16
  | constant32
  | absoluteAddress
  | relativeAddress
  | registerAddress
  | register
deriving DecidableEq, Repr

/-- What a 4-bit mode tag stands for: a concrete mode, the label pseudo-mode, or no mode at all (R61 to R63). -/
inductive TagKind where
  | concrete (m : ConcreteMode)
  | label
  | unknown
deriving DecidableEq, Repr

/-- A parameter (R21): a 4-bit mode tag and a 32-bit value. -/
structure Parameter where
  mode : BitVec 4
  value : BitVec 32
deriving DecidableEq, Repr

/-- The structural instruction value (R21). Both slots always exist; the declared count says which are present. -/
structure Instruction where
  opcode : BitVec 8
  p1 : Parameter
  p2 : Parameter
deriving DecidableEq, Repr

/-- The status of an operation (60_exceptions.md R221). -/
inductive Status where
  | ok
  | undefinedOpcode
  | unknownMode
  | absentModeNonzero
  | unresolvedLabel
  | capacity
  | truncated
deriving DecidableEq, Repr

/-- The slot a status speaks of (R21, R223): the instruction as a whole, p1 or p2. -/
inductive Slot where
  | whole
  | p1
  | p2
deriving DecidableEq, Repr

/-- A refused encoding or instruction value, by the name of its status and the slot at fault. -/
structure Reject where
  status : Status
  slot : Slot
deriving DecidableEq, Repr

/-- A format variant: F0, F1 with p1's mode, F2 with both modes (30_encoding.md R68, R76). -/
inductive Format where
  | f0
  | f1 (m : ConcreteMode)
  | f2 (m1 m2 : ConcreteMode)
deriving DecidableEq, Repr

/-- The instructions: one constructor per row of spec/opcode_table.json, carrying the opcode byte `o` and the values of the
present slots as 32-bit values (R21). `P_PCOUNT o` must be the row's count; see `Instr.WellFormed`. -/
inductive Instr where
  | f0 (o : BitVec 8)
  | f1Constant8 (o : BitVec 8) (v1 : BitVec 32)
  | f1Constant16 (o : BitVec 8) (v1 : BitVec 32)
  | f1Constant32 (o : BitVec 8) (v1 : BitVec 32)
  | f1AbsoluteAddress (o : BitVec 8) (v1 : BitVec 32)
  | f1RelativeAddress (o : BitVec 8) (v1 : BitVec 32)
  | f1RegisterAddress (o : BitVec 8) (v1 : BitVec 32)
  | f1Register (o : BitVec 8) (v1 : BitVec 32)
  | f2Constant8Constant8 (o : BitVec 8) (v1 : BitVec 32) (v2 : BitVec 32)
  | f2Constant8Constant16 (o : BitVec 8) (v1 : BitVec 32) (v2 : BitVec 32)
  | f2Constant8Constant32 (o : BitVec 8) (v1 : BitVec 32) (v2 : BitVec 32)
  | f2Constant8AbsoluteAddress (o : BitVec 8) (v1 : BitVec 32) (v2 : BitVec 32)
  | f2Constant8RelativeAddress (o : BitVec 8) (v1 : BitVec 32) (v2 : BitVec 32)
  | f2Constant8RegisterAddress (o : BitVec 8) (v1 : BitVec 32) (v2 : BitVec 32)
  | f2Constant8Register (o : BitVec 8) (v1 : BitVec 32) (v2 : BitVec 32)
  | f2Constant16Constant8 (o : BitVec 8) (v1 : BitVec 32) (v2 : BitVec 32)
  | f2Constant16Constant16 (o : BitVec 8) (v1 : BitVec 32) (v2 : BitVec 32)
  | f2Constant16Constant32 (o : BitVec 8) (v1 : BitVec 32) (v2 : BitVec 32)
  | f2Constant16AbsoluteAddress (o : BitVec 8) (v1 : BitVec 32) (v2 : BitVec 32)
  | f2Constant16RelativeAddress (o : BitVec 8) (v1 : BitVec 32) (v2 : BitVec 32)
  | f2Constant16RegisterAddress (o : BitVec 8) (v1 : BitVec 32) (v2 : BitVec 32)
  | f2Constant16Register (o : BitVec 8) (v1 : BitVec 32) (v2 : BitVec 32)
  | f2Constant32Constant8 (o : BitVec 8) (v1 : BitVec 32) (v2 : BitVec 32)
  | f2Constant32Constant16 (o : BitVec 8) (v1 : BitVec 32) (v2 : BitVec 32)
  | f2Constant32Constant32 (o : BitVec 8) (v1 : BitVec 32) (v2 : BitVec 32)
  | f2Constant32AbsoluteAddress (o : BitVec 8) (v1 : BitVec 32) (v2 : BitVec 32)
  | f2Constant32RelativeAddress (o : BitVec 8) (v1 : BitVec 32) (v2 : BitVec 32)
  | f2Constant32RegisterAddress (o : BitVec 8) (v1 : BitVec 32) (v2 : BitVec 32)
  | f2Constant32Register (o : BitVec 8) (v1 : BitVec 32) (v2 : BitVec 32)
  | f2AbsoluteAddressConstant8 (o : BitVec 8) (v1 : BitVec 32) (v2 : BitVec 32)
  | f2AbsoluteAddressConstant16 (o : BitVec 8) (v1 : BitVec 32) (v2 : BitVec 32)
  | f2AbsoluteAddressConstant32 (o : BitVec 8) (v1 : BitVec 32) (v2 : BitVec 32)
  | f2AbsoluteAddressAbsoluteAddress (o : BitVec 8) (v1 : BitVec 32) (v2 : BitVec 32)
  | f2AbsoluteAddressRelativeAddress (o : BitVec 8) (v1 : BitVec 32) (v2 : BitVec 32)
  | f2AbsoluteAddressRegisterAddress (o : BitVec 8) (v1 : BitVec 32) (v2 : BitVec 32)
  | f2AbsoluteAddressRegister (o : BitVec 8) (v1 : BitVec 32) (v2 : BitVec 32)
  | f2RelativeAddressConstant8 (o : BitVec 8) (v1 : BitVec 32) (v2 : BitVec 32)
  | f2RelativeAddressConstant16 (o : BitVec 8) (v1 : BitVec 32) (v2 : BitVec 32)
  | f2RelativeAddressConstant32 (o : BitVec 8) (v1 : BitVec 32) (v2 : BitVec 32)
  | f2RelativeAddressAbsoluteAddress (o : BitVec 8) (v1 : BitVec 32) (v2 : BitVec 32)
  | f2RelativeAddressRelativeAddress (o : BitVec 8) (v1 : BitVec 32) (v2 : BitVec 32)
  | f2RelativeAddressRegisterAddress (o : BitVec 8) (v1 : BitVec 32) (v2 : BitVec 32)
  | f2RelativeAddressRegister (o : BitVec 8) (v1 : BitVec 32) (v2 : BitVec 32)
  | f2RegisterAddressConstant8 (o : BitVec 8) (v1 : BitVec 32) (v2 : BitVec 32)
  | f2RegisterAddressConstant16 (o : BitVec 8) (v1 : BitVec 32) (v2 : BitVec 32)
  | f2RegisterAddressConstant32 (o : BitVec 8) (v1 : BitVec 32) (v2 : BitVec 32)
  | f2RegisterAddressAbsoluteAddress (o : BitVec 8) (v1 : BitVec 32) (v2 : BitVec 32)
  | f2RegisterAddressRelativeAddress (o : BitVec 8) (v1 : BitVec 32) (v2 : BitVec 32)
  | f2RegisterAddressRegisterAddress (o : BitVec 8) (v1 : BitVec 32) (v2 : BitVec 32)
  | f2RegisterAddressRegister (o : BitVec 8) (v1 : BitVec 32) (v2 : BitVec 32)
  | f2RegisterConstant8 (o : BitVec 8) (v1 : BitVec 32) (v2 : BitVec 32)
  | f2RegisterConstant16 (o : BitVec 8) (v1 : BitVec 32) (v2 : BitVec 32)
  | f2RegisterConstant32 (o : BitVec 8) (v1 : BitVec 32) (v2 : BitVec 32)
  | f2RegisterAbsoluteAddress (o : BitVec 8) (v1 : BitVec 32) (v2 : BitVec 32)
  | f2RegisterRelativeAddress (o : BitVec 8) (v1 : BitVec 32) (v2 : BitVec 32)
  | f2RegisterRegisterAddress (o : BitVec 8) (v1 : BitVec 32) (v2 : BitVec 32)
  | f2RegisterRegister (o : BitVec 8) (v1 : BitVec 32) (v2 : BitVec 32)
deriving DecidableEq, Repr

end Sys2Proof
end

