-- ==== Sys2Proof/Decode.lean ====
section
/-! DEFINITION. The encoding tables of 30_encoding.md, the total decoder from bytes to `Instr` with its refusals by name,
the encoder, the passage between `Instr` and the structural value of R21, and the reading of an opcode-table word. -/

namespace Sys2Proof

/-! ### Configuration lookups (R5, R55) -/

/-- The declared count as a number. -/
def ParamCount.toNat : ParamCount → Nat
  | .zero => 0
  | .one => 1
  | .two => 2

/-- `P_PCOUNT(o)`; none marks an opcode byte that is not defined (R5). -/
def Config.declared (c : Config) (o : BitVec 8) : Option ParamCount :=
  c.pCount.lookup o

/-- `P_LABEL_ORDINAL` (R62). -/
def Config.labelOrdinal (c : Config) : BitVec 4 :=
  BitVec.ofNat 4 (7 + c.labelOffset.val)

/-! ### Modes, widths and bytes -/

/-- The tag of a concrete mode (R61). -/
def ConcreteMode.tag : ConcreteMode → BitVec 4
  | .constant8 => 0
  | .constant16 => 1
  | .constant32 => 2
  | .absoluteAddress => 3
  | .relativeAddress => 4
  | .registerAddress => 5
  | .register => 6

/-- The concrete mode of a tag, none for 7..15 (R61). -/
def ConcreteMode.ofTag (t : BitVec 4) : Option ConcreteMode :=
  match t.toNat with
  | 0 => some .constant8
  | 1 => some .constant16
  | 2 => some .constant32
  | 3 => some .absoluteAddress
  | 4 => some .relativeAddress
  | 5 => some .registerAddress
  | 6 => some .register
  | _ => none

/-- The encoded width `W(m)` in bytes (R64; constant16 is 2 by conflict C1). -/
def ConcreteMode.width : ConcreteMode → Nat
  | .constant8 => 1
  | .constant16 => 2
  | .constant32 => 4
  | .absoluteAddress => 4
  | .relativeAddress => 4
  | .registerAddress => 1
  | .register => 1

/-- What a tag stands for under a configuration (R61, R62, R63). -/
def classify (c : Config) (t : BitVec 4) : TagKind :=
  match ConcreteMode.ofTag t with
  | some m => .concrete m
  | none => if t = c.labelOrdinal then .label else .unknown

/-- `LE_n(v)`: the n low bytes of v, least significant first (R10). -/
def leBytes (n : Nat) (v : BitVec 32) : List Byte :=
  (List.range n).map fun i => v.extractLsb' (8 * i) 8

/-- `unLE(b)`, the sum of `b[i]·2^(8i)` (R10). -/
def unLE : List Byte → Nat
  | [] => 0
  | b :: bs => b.toNat + 256 * unLE bs

/-- The high nibble `b[7:4]` (R8). -/
def hiNibble (b : Byte) : BitVec 4 :=
  b.extractLsb' 4 4

/-- The low nibble `b[3:0]` (R8). -/
def loNibble (b : Byte) : BitVec 4 :=
  b.extractLsb' 0 4

/-- The mode byte `(m1 << 4) | m2`, 8 bits (R66). -/
def packModes (m1 m2 : BitVec 4) : Byte :=
  (m1.setWidth 8 <<< 4) ||| m2.setWidth 8

/-! ### Format variants -/

/-- The declared count of a format variant (R68). -/
def Format.count : Format → ParamCount
  | .f0 => .zero
  | .f1 _ => .one
  | .f2 _ _ => .two

/-- The tag of slot p1; an absent slot has tag 0 (R68, R69). -/
def Format.tag1 : Format → BitVec 4
  | .f0 => 0
  | .f1 m => m.tag
  | .f2 m _ => m.tag

/-- The tag of slot p2; an absent slot has tag 0 (R68, R69). -/
def Format.tag2 : Format → BitVec 4
  | .f0 => 0
  | .f1 _ => 0
  | .f2 _ m => m.tag

/-- The length of a format variant in bytes (R68, R71). -/
def Format.length : Format → Nat
  | .f0 => 1
  | .f1 m => 2 + m.width
  | .f2 m1 m2 => 2 + m1.width + m2.width

/-- A value truncated to the field of its mode, `trunc_{8W}(v)` zero-extended: what its encoding decodes to (R78,
40_parameter_coder.md R113). -/
def ConcreteMode.clip (m : ConcreteMode) (v : BitVec 32) : BitVec 32 :=
  BitVec.ofNat 32 (v.toNat % 2 ^ (8 * m.width))

/-- The decoded value of slot p1; 0 for an absent slot (10_state.md R33). -/
def Format.value1 (f : Format) (v : BitVec 32) : BitVec 32 :=
  match f with
  | .f0 => 0
  | .f1 m => m.clip v
  | .f2 m _ => m.clip v

/-- The decoded value of slot p2; 0 for an absent slot (10_state.md R33). -/
def Format.value2 (f : Format) (v : BitVec 32) : BitVec 32 :=
  match f with
  | .f0 => 0
  | .f1 _ => 0
  | .f2 _ m => m.clip v

/-- The format variant that a declared count and two mode tags select, or the refusal that the order V2 to V7 of
41_instruction_coder.md R141 reports first (R74). -/
def formatOf (c : Config) (pc : ParamCount) (t1 t2 : BitVec 4) : Except Reject Format :=
  match pc with
  | .zero =>
    if t1 ≠ 0 then .error ⟨.absentModeNonzero, .p1⟩
    else if t2 ≠ 0 then .error ⟨.absentModeNonzero, .p2⟩
    else .ok .f0
  | .one =>
    match classify c t1 with
    | .unknown => .error ⟨.unknownMode, .p1⟩
    | .label => if t2 ≠ 0 then .error ⟨.absentModeNonzero, .p2⟩ else .error ⟨.unresolvedLabel, .p1⟩
    | .concrete m => if t2 ≠ 0 then .error ⟨.absentModeNonzero, .p2⟩ else .ok (.f1 m)
  | .two =>
    match classify c t1, classify c t2 with
    | .unknown, _ => .error ⟨.unknownMode, .p1⟩
    | _, .unknown => .error ⟨.unknownMode, .p2⟩
    | .label, _ => .error ⟨.unresolvedLabel, .p1⟩
    | _, .label => .error ⟨.unresolvedLabel, .p2⟩
    | .concrete m1, .concrete m2 => .ok (.f2 m1 m2)

/-! ### Between `Instr` and its parts -/

/-- An instruction taken apart: its format variant, opcode byte and values (0 for an absent slot). -/
structure View where
  format : Format
  opcode : BitVec 8
  v1 : BitVec 32
  v2 : BitVec 32
deriving DecidableEq, Repr

/-- The parts of an instruction. -/
def Instr.view : Instr → View
  | .f0 o => ⟨.f0, o, 0, 0⟩
  | .f1Constant8 o v1 => ⟨.f1 .constant8, o, v1, 0⟩
  | .f1Constant16 o v1 => ⟨.f1 .constant16, o, v1, 0⟩
  | .f1Constant32 o v1 => ⟨.f1 .constant32, o, v1, 0⟩
  | .f1AbsoluteAddress o v1 => ⟨.f1 .absoluteAddress, o, v1, 0⟩
  | .f1RelativeAddress o v1 => ⟨.f1 .relativeAddress, o, v1, 0⟩
  | .f1RegisterAddress o v1 => ⟨.f1 .registerAddress, o, v1, 0⟩
  | .f1Register o v1 => ⟨.f1 .register, o, v1, 0⟩
  | .f2Constant8Constant8 o v1 v2 => ⟨.f2 .constant8 .constant8, o, v1, v2⟩
  | .f2Constant8Constant16 o v1 v2 => ⟨.f2 .constant8 .constant16, o, v1, v2⟩
  | .f2Constant8Constant32 o v1 v2 => ⟨.f2 .constant8 .constant32, o, v1, v2⟩
  | .f2Constant8AbsoluteAddress o v1 v2 => ⟨.f2 .constant8 .absoluteAddress, o, v1, v2⟩
  | .f2Constant8RelativeAddress o v1 v2 => ⟨.f2 .constant8 .relativeAddress, o, v1, v2⟩
  | .f2Constant8RegisterAddress o v1 v2 => ⟨.f2 .constant8 .registerAddress, o, v1, v2⟩
  | .f2Constant8Register o v1 v2 => ⟨.f2 .constant8 .register, o, v1, v2⟩
  | .f2Constant16Constant8 o v1 v2 => ⟨.f2 .constant16 .constant8, o, v1, v2⟩
  | .f2Constant16Constant16 o v1 v2 => ⟨.f2 .constant16 .constant16, o, v1, v2⟩
  | .f2Constant16Constant32 o v1 v2 => ⟨.f2 .constant16 .constant32, o, v1, v2⟩
  | .f2Constant16AbsoluteAddress o v1 v2 => ⟨.f2 .constant16 .absoluteAddress, o, v1, v2⟩
  | .f2Constant16RelativeAddress o v1 v2 => ⟨.f2 .constant16 .relativeAddress, o, v1, v2⟩
  | .f2Constant16RegisterAddress o v1 v2 => ⟨.f2 .constant16 .registerAddress, o, v1, v2⟩
  | .f2Constant16Register o v1 v2 => ⟨.f2 .constant16 .register, o, v1, v2⟩
  | .f2Constant32Constant8 o v1 v2 => ⟨.f2 .constant32 .constant8, o, v1, v2⟩
  | .f2Constant32Constant16 o v1 v2 => ⟨.f2 .constant32 .constant16, o, v1, v2⟩
  | .f2Constant32Constant32 o v1 v2 => ⟨.f2 .constant32 .constant32, o, v1, v2⟩
  | .f2Constant32AbsoluteAddress o v1 v2 => ⟨.f2 .constant32 .absoluteAddress, o, v1, v2⟩
  | .f2Constant32RelativeAddress o v1 v2 => ⟨.f2 .constant32 .relativeAddress, o, v1, v2⟩
  | .f2Constant32RegisterAddress o v1 v2 => ⟨.f2 .constant32 .registerAddress, o, v1, v2⟩
  | .f2Constant32Register o v1 v2 => ⟨.f2 .constant32 .register, o, v1, v2⟩
  | .f2AbsoluteAddressConstant8 o v1 v2 => ⟨.f2 .absoluteAddress .constant8, o, v1, v2⟩
  | .f2AbsoluteAddressConstant16 o v1 v2 => ⟨.f2 .absoluteAddress .constant16, o, v1, v2⟩
  | .f2AbsoluteAddressConstant32 o v1 v2 => ⟨.f2 .absoluteAddress .constant32, o, v1, v2⟩
  | .f2AbsoluteAddressAbsoluteAddress o v1 v2 => ⟨.f2 .absoluteAddress .absoluteAddress, o, v1, v2⟩
  | .f2AbsoluteAddressRelativeAddress o v1 v2 => ⟨.f2 .absoluteAddress .relativeAddress, o, v1, v2⟩
  | .f2AbsoluteAddressRegisterAddress o v1 v2 => ⟨.f2 .absoluteAddress .registerAddress, o, v1, v2⟩
  | .f2AbsoluteAddressRegister o v1 v2 => ⟨.f2 .absoluteAddress .register, o, v1, v2⟩
  | .f2RelativeAddressConstant8 o v1 v2 => ⟨.f2 .relativeAddress .constant8, o, v1, v2⟩
  | .f2RelativeAddressConstant16 o v1 v2 => ⟨.f2 .relativeAddress .constant16, o, v1, v2⟩
  | .f2RelativeAddressConstant32 o v1 v2 => ⟨.f2 .relativeAddress .constant32, o, v1, v2⟩
  | .f2RelativeAddressAbsoluteAddress o v1 v2 => ⟨.f2 .relativeAddress .absoluteAddress, o, v1, v2⟩
  | .f2RelativeAddressRelativeAddress o v1 v2 => ⟨.f2 .relativeAddress .relativeAddress, o, v1, v2⟩
  | .f2RelativeAddressRegisterAddress o v1 v2 => ⟨.f2 .relativeAddress .registerAddress, o, v1, v2⟩
  | .f2RelativeAddressRegister o v1 v2 => ⟨.f2 .relativeAddress .register, o, v1, v2⟩
  | .f2RegisterAddressConstant8 o v1 v2 => ⟨.f2 .registerAddress .constant8, o, v1, v2⟩
  | .f2RegisterAddressConstant16 o v1 v2 => ⟨.f2 .registerAddress .constant16, o, v1, v2⟩
  | .f2RegisterAddressConstant32 o v1 v2 => ⟨.f2 .registerAddress .constant32, o, v1, v2⟩
  | .f2RegisterAddressAbsoluteAddress o v1 v2 => ⟨.f2 .registerAddress .absoluteAddress, o, v1, v2⟩
  | .f2RegisterAddressRelativeAddress o v1 v2 => ⟨.f2 .registerAddress .relativeAddress, o, v1, v2⟩
  | .f2RegisterAddressRegisterAddress o v1 v2 => ⟨.f2 .registerAddress .registerAddress, o, v1, v2⟩
  | .f2RegisterAddressRegister o v1 v2 => ⟨.f2 .registerAddress .register, o, v1, v2⟩
  | .f2RegisterConstant8 o v1 v2 => ⟨.f2 .register .constant8, o, v1, v2⟩
  | .f2RegisterConstant16 o v1 v2 => ⟨.f2 .register .constant16, o, v1, v2⟩
  | .f2RegisterConstant32 o v1 v2 => ⟨.f2 .register .constant32, o, v1, v2⟩
  | .f2RegisterAbsoluteAddress o v1 v2 => ⟨.f2 .register .absoluteAddress, o, v1, v2⟩
  | .f2RegisterRelativeAddress o v1 v2 => ⟨.f2 .register .relativeAddress, o, v1, v2⟩
  | .f2RegisterRegisterAddress o v1 v2 => ⟨.f2 .register .registerAddress, o, v1, v2⟩
  | .f2RegisterRegister o v1 v2 => ⟨.f2 .register .register, o, v1, v2⟩

/-- The F1 instruction of a mode. -/
def Instr.ofF1 (m : ConcreteMode) (o : BitVec 8) (v1 : BitVec 32) : Instr :=
  match m with
  | .constant8 => .f1Constant8 o v1
  | .constant16 => .f1Constant16 o v1
  | .constant32 => .f1Constant32 o v1
  | .absoluteAddress => .f1AbsoluteAddress o v1
  | .relativeAddress => .f1RelativeAddress o v1
  | .registerAddress => .f1RegisterAddress o v1
  | .register => .f1Register o v1

/-- The F2 instruction of a mode pair. -/
def Instr.ofF2 (m1 m2 : ConcreteMode) (o : BitVec 8) (v1 v2 : BitVec 32) : Instr :=
  match m1, m2 with
  | .constant8, .constant8 => .f2Constant8Constant8 o v1 v2
  | .constant8, .constant16 => .f2Constant8Constant16 o v1 v2
  | .constant8, .constant32 => .f2Constant8Constant32 o v1 v2
  | .constant8, .absoluteAddress => .f2Constant8AbsoluteAddress o v1 v2
  | .constant8, .relativeAddress => .f2Constant8RelativeAddress o v1 v2
  | .constant8, .registerAddress => .f2Constant8RegisterAddress o v1 v2
  | .constant8, .register => .f2Constant8Register o v1 v2
  | .constant16, .constant8 => .f2Constant16Constant8 o v1 v2
  | .constant16, .constant16 => .f2Constant16Constant16 o v1 v2
  | .constant16, .constant32 => .f2Constant16Constant32 o v1 v2
  | .constant16, .absoluteAddress => .f2Constant16AbsoluteAddress o v1 v2
  | .constant16, .relativeAddress => .f2Constant16RelativeAddress o v1 v2
  | .constant16, .registerAddress => .f2Constant16RegisterAddress o v1 v2
  | .constant16, .register => .f2Constant16Register o v1 v2
  | .constant32, .constant8 => .f2Constant32Constant8 o v1 v2
  | .constant32, .constant16 => .f2Constant32Constant16 o v1 v2
  | .constant32, .constant32 => .f2Constant32Constant32 o v1 v2
  | .constant32, .absoluteAddress => .f2Constant32AbsoluteAddress o v1 v2
  | .constant32, .relativeAddress => .f2Constant32RelativeAddress o v1 v2
  | .constant32, .registerAddress => .f2Constant32RegisterAddress o v1 v2
  | .constant32, .register => .f2Constant32Register o v1 v2
  | .absoluteAddress, .constant8 => .f2AbsoluteAddressConstant8 o v1 v2
  | .absoluteAddress, .constant16 => .f2AbsoluteAddressConstant16 o v1 v2
  | .absoluteAddress, .constant32 => .f2AbsoluteAddressConstant32 o v1 v2
  | .absoluteAddress, .absoluteAddress => .f2AbsoluteAddressAbsoluteAddress o v1 v2
  | .absoluteAddress, .relativeAddress => .f2AbsoluteAddressRelativeAddress o v1 v2
  | .absoluteAddress, .registerAddress => .f2AbsoluteAddressRegisterAddress o v1 v2
  | .absoluteAddress, .register => .f2AbsoluteAddressRegister o v1 v2
  | .relativeAddress, .constant8 => .f2RelativeAddressConstant8 o v1 v2
  | .relativeAddress, .constant16 => .f2RelativeAddressConstant16 o v1 v2
  | .relativeAddress, .constant32 => .f2RelativeAddressConstant32 o v1 v2
  | .relativeAddress, .absoluteAddress => .f2RelativeAddressAbsoluteAddress o v1 v2
  | .relativeAddress, .relativeAddress => .f2RelativeAddressRelativeAddress o v1 v2
  | .relativeAddress, .registerAddress => .f2RelativeAddressRegisterAddress o v1 v2
  | .relativeAddress, .register => .f2RelativeAddressRegister o v1 v2
  | .registerAddress, .constant8 => .f2RegisterAddressConstant8 o v1 v2
  | .registerAddress, .constant16 => .f2RegisterAddressConstant16 o v1 v2
  | .registerAddress, .constant32 => .f2RegisterAddressConstant32 o v1 v2
  | .registerAddress, .absoluteAddress => .f2RegisterAddressAbsoluteAddress o v1 v2
  | .registerAddress, .relativeAddress => .f2RegisterAddressRelativeAddress o v1 v2
  | .registerAddress, .registerAddress => .f2RegisterAddressRegisterAddress o v1 v2
  | .registerAddress, .register => .f2RegisterAddressRegister o v1 v2
  | .register, .constant8 => .f2RegisterConstant8 o v1 v2
  | .register, .constant16 => .f2RegisterConstant16 o v1 v2
  | .register, .constant32 => .f2RegisterConstant32 o v1 v2
  | .register, .absoluteAddress => .f2RegisterAbsoluteAddress o v1 v2
  | .register, .relativeAddress => .f2RegisterRelativeAddress o v1 v2
  | .register, .registerAddress => .f2RegisterRegisterAddress o v1 v2
  | .register, .register => .f2RegisterRegister o v1 v2

/-- The instruction of a format variant; values of absent slots are dropped (93_implementation_defined.md U16). -/
def Instr.ofFormat (f : Format) (o : BitVec 8) (v1 v2 : BitVec 32) : Instr :=
  match f with
  | .f0 => .f0 o
  | .f1 m => Instr.ofF1 m o v1
  | .f2 m1 m2 => Instr.ofF2 m1 m2 o v1 v2

/-- The structural value of R21 that an instruction stands for; an absent slot is `(0, 0)` (10_state.md R33). -/
def Instr.toInstruction (i : Instr) : Instruction :=
  ⟨i.view.opcode, ⟨i.view.format.tag1, i.view.v1⟩, ⟨i.view.format.tag2, i.view.v2⟩⟩

/-- The instruction a structural value spells, or the refusal VALIDATE reports for emission (R141 with `final = 1`). -/
def Instr.ofInstruction (c : Config) (x : Instruction) : Except Reject Instr :=
  match c.declared x.opcode with
  | none => .error ⟨.undefinedOpcode, .whole⟩
  | some pc =>
    match formatOf c pc x.p1.mode x.p2.mode with
    | .error r => .error r
    | .ok f => .ok (Instr.ofFormat f x.opcode x.p1.value x.p2.value)

/-! ### The decoder -/

/-- One field taken from the front of the bytes: its value (R73) and the bytes after it; none if bytes are missing. -/
def takeField (m : ConcreteMode) (bs : List Byte) : Option (BitVec 32 × List Byte) :=
  if bs.length < m.width then none
  else some (BitVec.ofNat 32 (unLE (bs.take m.width)), bs.drop m.width)

/-- The fields of a format variant taken from the bytes after opcode and mode byte (R67, R73). -/
def takeFields (f : Format) (o : BitVec 8) (bs : List Byte) : Except Reject (Instr × List Byte) :=
  match f with
  | .f0 => .ok (.f0 o, bs)
  | .f1 m =>
    match takeField m bs with
    | none => .error ⟨.truncated, .whole⟩
    | some (v1, rest) => .ok (Instr.ofF1 m o v1, rest)
  | .f2 m1 m2 =>
    match takeField m1 bs with
    | none => .error ⟨.truncated, .whole⟩
    | some (v1, rest1) =>
      match takeField m2 rest1 with
      | none => .error ⟨.truncated, .whole⟩
      | some (v2, rest2) => .ok (Instr.ofF2 m1 m2 o v1 v2, rest2)

/-- The decoder: the instruction at the front of the bytes and the bytes after it, or the refusal by name (R65, R72, R73,
R74; the order of refusals is that of R144 and 60_exceptions.md R225). It is total. -/
def decode (c : Config) (bs : List Byte) : Except Reject (Instr × List Byte) :=
  match bs with
  | [] => .error ⟨.truncated, .whole⟩
  | o :: rest =>
    match c.declared o with
    | none => .error ⟨.undefinedOpcode, .whole⟩
    | some .zero => .ok (.f0 o, rest)
    | some pc =>
      match rest with
      | [] => .error ⟨.truncated, .whole⟩
      | b :: fields =>
        match formatOf c pc (hiNibble b) (loNibble b) with
        | .error r => .error r
        | .ok f => takeFields f o fields

/-! ### The encoder -/

/-- The bytes of an instruction, row by row from spec/opcode_table.json: opcode, mode byte, little-endian fields (R68). -/
def encode : Instr → List Byte
  | .f0 o => [o]
  | .f1Constant8 o v1 => o :: 0x00 :: leBytes 1 v1
  | .f1Constant16 o v1 => o :: 0x10 :: leBytes 2 v1
  | .f1Constant32 o v1 => o :: 0x20 :: leBytes 4 v1
  | .f1AbsoluteAddress o v1 => o :: 0x30 :: leBytes 4 v1
  | .f1RelativeAddress o v1 => o :: 0x40 :: leBytes 4 v1
  | .f1RegisterAddress o v1 => o :: 0x50 :: leBytes 1 v1
  | .f1Register o v1 => o :: 0x60 :: leBytes 1 v1
  | .f2Constant8Constant8 o v1 v2 => o :: 0x00 :: (leBytes 1 v1 ++ leBytes 1 v2)
  | .f2Constant8Constant16 o v1 v2 => o :: 0x01 :: (leBytes 1 v1 ++ leBytes 2 v2)
  | .f2Constant8Constant32 o v1 v2 => o :: 0x02 :: (leBytes 1 v1 ++ leBytes 4 v2)
  | .f2Constant8AbsoluteAddress o v1 v2 => o :: 0x03 :: (leBytes 1 v1 ++ leBytes 4 v2)
  | .f2Constant8RelativeAddress o v1 v2 => o :: 0x04 :: (leBytes 1 v1 ++ leBytes 4 v2)
  | .f2Constant8RegisterAddress o v1 v2 => o :: 0x05 :: (leBytes 1 v1 ++ leBytes 1 v2)
  | .f2Constant8Register o v1 v2 => o :: 0x06 :: (leBytes 1 v1 ++ leBytes 1 v2)
  | .f2Constant16Constant8 o v1 v2 => o :: 0x10 :: (leBytes 2 v1 ++ leBytes 1 v2)
  | .f2Constant16Constant16 o v1 v2 => o :: 0x11 :: (leBytes 2 v1 ++ leBytes 2 v2)
  | .f2Constant16Constant32 o v1 v2 => o :: 0x12 :: (leBytes 2 v1 ++ leBytes 4 v2)
  | .f2Constant16AbsoluteAddress o v1 v2 => o :: 0x13 :: (leBytes 2 v1 ++ leBytes 4 v2)
  | .f2Constant16RelativeAddress o v1 v2 => o :: 0x14 :: (leBytes 2 v1 ++ leBytes 4 v2)
  | .f2Constant16RegisterAddress o v1 v2 => o :: 0x15 :: (leBytes 2 v1 ++ leBytes 1 v2)
  | .f2Constant16Register o v1 v2 => o :: 0x16 :: (leBytes 2 v1 ++ leBytes 1 v2)
  | .f2Constant32Constant8 o v1 v2 => o :: 0x20 :: (leBytes 4 v1 ++ leBytes 1 v2)
  | .f2Constant32Constant16 o v1 v2 => o :: 0x21 :: (leBytes 4 v1 ++ leBytes 2 v2)
  | .f2Constant32Constant32 o v1 v2 => o :: 0x22 :: (leBytes 4 v1 ++ leBytes 4 v2)
  | .f2Constant32AbsoluteAddress o v1 v2 => o :: 0x23 :: (leBytes 4 v1 ++ leBytes 4 v2)
  | .f2Constant32RelativeAddress o v1 v2 => o :: 0x24 :: (leBytes 4 v1 ++ leBytes 4 v2)
  | .f2Constant32RegisterAddress o v1 v2 => o :: 0x25 :: (leBytes 4 v1 ++ leBytes 1 v2)
  | .f2Constant32Register o v1 v2 => o :: 0x26 :: (leBytes 4 v1 ++ leBytes 1 v2)
  | .f2AbsoluteAddressConstant8 o v1 v2 => o :: 0x30 :: (leBytes 4 v1 ++ leBytes 1 v2)
  | .f2AbsoluteAddressConstant16 o v1 v2 => o :: 0x31 :: (leBytes 4 v1 ++ leBytes 2 v2)
  | .f2AbsoluteAddressConstant32 o v1 v2 => o :: 0x32 :: (leBytes 4 v1 ++ leBytes 4 v2)
  | .f2AbsoluteAddressAbsoluteAddress o v1 v2 => o :: 0x33 :: (leBytes 4 v1 ++ leBytes 4 v2)
  | .f2AbsoluteAddressRelativeAddress o v1 v2 => o :: 0x34 :: (leBytes 4 v1 ++ leBytes 4 v2)
  | .f2AbsoluteAddressRegisterAddress o v1 v2 => o :: 0x35 :: (leBytes 4 v1 ++ leBytes 1 v2)
  | .f2AbsoluteAddressRegister o v1 v2 => o :: 0x36 :: (leBytes 4 v1 ++ leBytes 1 v2)
  | .f2RelativeAddressConstant8 o v1 v2 => o :: 0x40 :: (leBytes 4 v1 ++ leBytes 1 v2)
  | .f2RelativeAddressConstant16 o v1 v2 => o :: 0x41 :: (leBytes 4 v1 ++ leBytes 2 v2)
  | .f2RelativeAddressConstant32 o v1 v2 => o :: 0x42 :: (leBytes 4 v1 ++ leBytes 4 v2)
  | .f2RelativeAddressAbsoluteAddress o v1 v2 => o :: 0x43 :: (leBytes 4 v1 ++ leBytes 4 v2)
  | .f2RelativeAddressRelativeAddress o v1 v2 => o :: 0x44 :: (leBytes 4 v1 ++ leBytes 4 v2)
  | .f2RelativeAddressRegisterAddress o v1 v2 => o :: 0x45 :: (leBytes 4 v1 ++ leBytes 1 v2)
  | .f2RelativeAddressRegister o v1 v2 => o :: 0x46 :: (leBytes 4 v1 ++ leBytes 1 v2)
  | .f2RegisterAddressConstant8 o v1 v2 => o :: 0x50 :: (leBytes 1 v1 ++ leBytes 1 v2)
  | .f2RegisterAddressConstant16 o v1 v2 => o :: 0x51 :: (leBytes 1 v1 ++ leBytes 2 v2)
  | .f2RegisterAddressConstant32 o v1 v2 => o :: 0x52 :: (leBytes 1 v1 ++ leBytes 4 v2)
  | .f2RegisterAddressAbsoluteAddress o v1 v2 => o :: 0x53 :: (leBytes 1 v1 ++ leBytes 4 v2)
  | .f2RegisterAddressRelativeAddress o v1 v2 => o :: 0x54 :: (leBytes 1 v1 ++ leBytes 4 v2)
  | .f2RegisterAddressRegisterAddress o v1 v2 => o :: 0x55 :: (leBytes 1 v1 ++ leBytes 1 v2)
  | .f2RegisterAddressRegister o v1 v2 => o :: 0x56 :: (leBytes 1 v1 ++ leBytes 1 v2)
  | .f2RegisterConstant8 o v1 v2 => o :: 0x60 :: (leBytes 1 v1 ++ leBytes 1 v2)
  | .f2RegisterConstant16 o v1 v2 => o :: 0x61 :: (leBytes 1 v1 ++ leBytes 2 v2)
  | .f2RegisterConstant32 o v1 v2 => o :: 0x62 :: (leBytes 1 v1 ++ leBytes 4 v2)
  | .f2RegisterAbsoluteAddress o v1 v2 => o :: 0x63 :: (leBytes 1 v1 ++ leBytes 4 v2)
  | .f2RegisterRelativeAddress o v1 v2 => o :: 0x64 :: (leBytes 1 v1 ++ leBytes 4 v2)
  | .f2RegisterRegisterAddress o v1 v2 => o :: 0x65 :: (leBytes 1 v1 ++ leBytes 1 v2)
  | .f2RegisterRegister o v1 v2 => o :: 0x66 :: (leBytes 1 v1 ++ leBytes 1 v2)

/-! ### Words of spec/opcode_table.json (log 10) -/

/-- The ten bytes, lowest offset first, of an opcode-table word. The table's numbered bits 7..0 of an F1 or F2 row are the
MODE byte ("match/mask apply to it"): such a word stands at offset 1, after an opcode byte 0. A longer word holds the
bytes of the instruction from offset 0, the first in bits 7..0. -/
def tableBytes (nbits w : Nat) : List Byte :=
  let bits := w % 2 ^ nbits
  let whole := if nbits ≤ 8 ∧ bits ≠ 0 then bits * 256 else bits
  (List.range 10).map fun i => BitVec.ofNat 8 (whole / 256 ^ i)

/-- The declared count that the word's row asks of its opcode byte. -/
def tableCount (nbits w : Nat) : ParamCount :=
  let modes := (tableBytes nbits w).getD 1 0
  if nbits ≤ 8 ∧ w % 2 ^ nbits = 0 then .zero
  else if loNibble modes ≠ 0 then .two
  else
    match ConcreteMode.ofTag (hiNibble modes) with
    | none => .one
    | some m => if nbits / 8 = 3 + m.width then .two else .one

/-- The entry of `P_PCOUNT` that the word's row asks for ("P_PCOUNT(opcode) must be ..."). -/
def tableEntry (nbits w : Nat) : BitVec 8 × ParamCount :=
  ((tableBytes nbits w).getD 0 0, tableCount nbits w)

/-- The instruction the decoder reads from an opcode-table word, under the configuration its row asks for. -/
def decodeTableWord (nbits w : Nat) : Option Instr :=
  match decode ⟨[tableEntry nbits w], [], [], 0, false⟩ (tableBytes nbits w) with
  | .ok (i, _) => some i
  | .error _ => none

end Sys2Proof
end

