-- ==== Sys2Proof/WellFormed.lean ====
section
/-! DEFINITION. When an instruction is well formed under a configuration: its opcode byte has the row's declared count, and
each value fits its field (30_encoding.md R67, R76, R78). -/

namespace Sys2Proof

/-- `P_PCOUNT` of the opcode byte is the count of the row (R76). -/
def Instr.countOk (c : Config) (i : Instr) : Bool :=
  decide (c.declared i.view.opcode = some i.view.format.count)

/-- A value fits the field of its mode, so that encoding drops no bit of it (R78). -/
def fitsField (m : ConcreteMode) (v : BitVec 32) : Bool :=
  decide (v.toNat < 2 ^ (8 * m.width))

/-- Every present slot's value fits its field. -/
def Instr.valuesFit (i : Instr) : Bool :=
  match i.view.format with
  | .f0 => true
  | .f1 m => fitsField m i.view.v1
  | .f2 m1 m2 => fitsField m1 i.view.v1 && fitsField m2 i.view.v2

/-- A well-formed instruction: one that IDEC can report and IENC reproduces. -/
def Instr.WellFormed (c : Config) (i : Instr) : Bool :=
  i.countOk c && i.valuesFit

end Sys2Proof
end

