-- ==== Sys2Proof/Machine/State.lean ====
section
/-! DEFINITION. The state of a run of TXED, the reasons a step can stop, and the state after reset. TXED itself is stateless
(10_state.md R22 to R26): State holds what its operations read and write, field by field as INVENTORY.md lists it. -/

namespace Sys2Proof.Machine

/-- The reasons a step faults: none. An error of TXED is a status it returns (60_exceptions.md R226), and an operation has no
other outcome (70_reset_and_hazards.md R260). -/
inductive Fault where
deriving DecidableEq, Repr

/-- The reasons a step is refused. -/
inductive Refusal where
  /-- Raised by exec's arm of an instruction that has no meaning yet. Safe: the model stops. -/
  | notModelled (mnemonic : String)
  /-- Raised by a commit that would write outside the buffer, which has no step (20_memory.md R46, 70_reset_and_hazards.md
  R253). Safe: the model stops. -/
  | commitOutsideBuffer
deriving DecidableEq, Repr

/-- Bytes by offset, strictly rising, none equal to what an unlisted offset reads as (`Memory.wf`). -/
abbrev Memory := List Host.Cell

/-! ### Output ports (10_state.md R27 to R33) -/

/-- WIDTH's outputs (R27). -/
structure WidthOut where
  valid : Bool
  width : BitVec 3
deriving DecidableEq, Repr

/-- PENC's outputs (R28). -/
structure PencOut where
  n : BitVec 3
  bytes : Vector Byte 4
deriving DecidableEq, Repr

/-- PDEC's outputs (R29). -/
structure PdecOut where
  valid : Bool
  value : BitVec 32
deriving DecidableEq, Repr

/-- VALIDATE's outputs (R30). -/
structure StatusOut where
  status : Status
  slot : Slot
deriving DecidableEq, Repr

/-- LEN's outputs (R31). -/
structure LenOut where
  status : Status
  slot : Slot
  len : BitVec 4
deriving DecidableEq, Repr

/-- IENC's outputs (R32). -/
structure IencOut where
  status : Status
  slot : Slot
  len : BitVec 4
  out : Vector Byte 10
  we : Vector Bool 10
deriving DecidableEq, Repr

/-- IDEC's outputs (R33). -/
structure IdecOut where
  status : Status
  slot : Slot
  opcode : BitVec 8
  pc : BitVec 2
  m1 : BitVec 4
  v1 : BitVec 32
  m2 : BitVec 4
  v2 : BitVec 32
  len : BitVec 4
deriving DecidableEq, Repr

/-- An entry of DecodeSeq's listing: the offset and IDEC's result there (41_instruction_coder.md R150). -/
structure Entry where
  offset : Nat
  result : IdecOut
deriving DecidableEq, Repr

/-! ### What is asked and what is answered -/

/-- An operation presented to TXED, with its input ports (R27 to R34), or a procedure of its caller. -/
inductive Call where
  | width (mode : BitVec 4)
  | penc (mode : BitVec 4) (value : BitVec 32)
  | pdec (mode : BitVec 4) (bytes : Vector Byte 4)
  | validate (opcode : BitVec 8) (m1 m2 : BitVec 4) (final : Bool)
  | len (opcode : BitVec 8) (m1 m2 : BitVec 4)
  /-- IENC, its outputs only. -/
  | ienc (x : Instruction) (cap : BitVec 4)
  /-- IENC and the commit of its result at write base `d` (20_memory.md R44). -/
  | iencCommit (x : Instruction) (cap : BitVec 4) (d : Nat)
  /-- IDEC of a window presented by value. -/
  | idec (win : Vector Byte 10) (avail : BitVec 4)
  /-- IDEC of the image at an offset, its window read at the time of the call (20_memory.md R53). -/
  | idecAt (offset : Nat) (avail : BitVec 4)
  | pfmt (p : Parameter)
  | ifmt (x : Instruction)
  /-- EncodeSeq (41_instruction_coder.md R149). -/
  | encodeSeq (xs : List Instruction) (base size : Nat)
  /-- DecodeSeq (R150). -/
  | decodeSeq (base limit : Nat)
  /-- ANOTHER caller's IENC, whose commit at `d` begins now and lands byte by byte (20_memory.md R50, log 8). -/
  | otherCommit (x : Instruction) (cap : BitVec 4) (d : Nat)
deriving DecidableEq, Repr

/-- What an operation returned to the caller. -/
inductive Reply where
  | width (r : WidthOut)
  | penc (r : PencOut)
  | pdec (r : PdecOut)
  | validate (r : StatusOut)
  | len (r : LenOut)
  | ienc (r : IencOut)
  | idec (r : IdecOut)
  | pfmt (t : Text)
  | ifmt (t : Text)
  /-- EncodeSeq stopped: done, with its cursor. -/
  | encodeDone (cursor : Nat)
  /-- EncodeSeq stopped: failed at instruction `index` (counted from 1). -/
  | encodeFailed (index : Nat) (status : Status) (slot : Slot) (cursor : Nat)
  /-- DecodeSeq stopped: done, with its listing. -/
  | decodeDone (listing : List Entry)
  /-- DecodeSeq stopped: failed at an offset, with the listing so far. -/
  | decodeFailed (offset : Nat) (status : Status) (slot : Slot) (listing : List Entry)
deriving DecidableEq, Repr

/-- The stream procedure in progress, with its variables (R149, R150). -/
inductive Phase where
  | idle
  /-- EncodeSeq: the instructions still to come, `base + size`, the cursor `c` and the index `j` of the next instruction. -/
  | encoding (pending : List Instruction) (limit cursor index : Nat)
  /-- DecodeSeq: the cursor `c`, `end` and the listing. -/
  | decoding (cursor limit : Nat) (listing : List Entry)
deriving DecidableEq, Repr

/-- The state of a run. -/
structure State where
  /-- The configuration, never written (10_state.md R25, log 1). -/
  config : Config
  /-- The size of the caller's buffer (20_memory.md R41). -/
  bufSize : Nat
  /-- The bytes of the buffer. -/
  mem : Memory
  /-- The stream procedure in progress. -/
  phase : Phase
  /-- MODEL'S OWN: operations presented and not yet done, oldest first (log 4). -/
  calls : List Call
  /-- MODEL'S OWN: outputs returned to the caller, oldest first; no operation reads them (R24, log 4). -/
  replies : List Reply
  /-- MODEL'S OWN: bytes of other callers' commits that have not landed (R50, log 8). -/
  inflight : List Host.Cell
  /-- MODEL'S OWN: the counter of the free values `Config.commitLands` (log 8) and `Config.outsideByte` (log 7). -/
  draws : Nat
deriving DecidableEq, Repr

/-- After reset: the label ordinal and the gate at the spec's defaults (R5), no opcode defined, no buffer supplied, nothing
asked, nothing answered (R35, R251; logs 2, 4, 5, 6, 8). -/
def State.reset : State where
  config := ⟨[], [], [], 0, false⟩
  bufSize := 0
  mem := []
  phase := .idle
  calls := []
  replies := []
  inflight := []
  draws := 0

end Sys2Proof.Machine
end

