-- ==== Sys2Proof/Machine/Operands.lean ====
section
/-! DEFINITION. The Parameter Coder: WIDTH, PENC and PDEC (40_parameter_coder.md R101 to R112). -/

namespace Sys2Proof.Machine

/-- WIDTH (R101): the width of a concrete mode, 4 for the label tag, not valid otherwise. -/
def width (c : Config) (mode : BitVec 4) : WidthOut :=
  match classify c mode with
  | .concrete m => ⟨true, BitVec.ofNat 3 m.width⟩
  | .label => ⟨true, BitVec.ofNat 3 ConcreteMode.constant32.width⟩
  | .unknown => ⟨false, 0⟩

/-- The written width `N(mode)` (R102): 0 for label and unknown tags. -/
def writtenWidth (mode : BitVec 4) : Nat :=
  match ConcreteMode.ofTag mode with
  | some m => m.width
  | none => 0

/-- PENC (R102): the low `n` bytes of the value, the other output bytes 0. -/
def penc (mode : BitVec 4) (value : BitVec 32) : PencOut where
  n := BitVec.ofNat 3 (writtenWidth mode)
  bytes := Vector.ofFn fun i => if i.val < writtenWidth mode then value.extractLsb' (8 * i.val) 8 else 0

/-- PDEC (R103): the zero-extended little-endian field of a concrete mode. -/
def pdec (mode : BitVec 4) (bytes : Vector Byte 4) : PdecOut :=
  match ConcreteMode.ofTag mode with
  | some m => ⟨true, BitVec.ofNat 32 (unLE (bytes.toList.take m.width))⟩
  | none => ⟨false, 0⟩

/-- `s32(v)`, the two's-complement reading of a value (00_scope.md R9). -/
def s32 (v : BitVec 32) : Int :=
  if v.toNat < 2 ^ 31 then v.toNat else (v.toNat : Int) - 2 ^ 32

end Sys2Proof.Machine
end

