-- ==== Sys2Proof/Machine/Flags.lean ====
section
/-! DEFINITION. TXED has no flags (10_state.md R24): its only error indication is the status and slot outputs. Their codes
(60_exceptions.md R221) and VALIDATE, the operation that computes them (41_instruction_coder.md R141). -/

namespace Sys2Proof.Machine

/-- The status port's 3-bit code (R221). -/
def statusCode : Status → BitVec 3
  | .ok => 0
  | .undefinedOpcode => 1
  | .unknownMode => 2
  | .absentModeNonzero => 3
  | .unresolvedLabel => 4
  | .capacity => 5
  | .truncated => 6

/-- The slot port's 2-bit code (R21, R223). -/
def slotCode : Slot → BitVec 2
  | .whole => 0
  | .p1 => 1
  | .p2 => 2

/-- VALIDATE (R141): the checks V1 to V7 in order, the first that fails reported. -/
def validate (c : Config) (opcode : BitVec 8) (m1 m2 : BitVec 4) (final : Bool) : StatusOut :=
  match c.declared opcode with
  | none => ⟨.undefinedOpcode, .whole⟩
  | some pc =>
    if 1 ≤ pc.toNat ∧ (width c m1).valid = false then ⟨.unknownMode, .p1⟩
    else if 2 ≤ pc.toNat ∧ (width c m2).valid = false then ⟨.unknownMode, .p2⟩
    else if pc.toNat < 1 ∧ m1 ≠ 0 then ⟨.absentModeNonzero, .p1⟩
    else if pc.toNat < 2 ∧ m2 ≠ 0 then ⟨.absentModeNonzero, .p2⟩
    else if final = true ∧ 1 ≤ pc.toNat ∧ m1 = c.labelOrdinal then ⟨.unresolvedLabel, .p1⟩
    else if final = true ∧ 2 ≤ pc.toNat ∧ m2 = c.labelOrdinal then ⟨.unresolvedLabel, .p2⟩
    else ⟨.ok, .whole⟩

end Sys2Proof.Machine
end

