-- ==== Sys2Proof/Machine/InstructionCoder.lean ====
section
/-! DEFINITION. The Instruction Coder: LEN, IENC and IDEC (41_instruction_coder.md R142 to R145), as the pseudocode of the
spec has them. -/

namespace Sys2Proof.Machine

/-- LEN's sum for a declared count (30_encoding.md R70). -/
def lengthSum (c : Config) (pc : ParamCount) (m1 m2 : BitVec 4) : Nat :=
  1 + (if 0 < pc.toNat then 1 else 0)
    + (if 1 ≤ pc.toNat then (width c m1).width.toNat else 0)
    + (if 2 ≤ pc.toNat then (width c m2).width.toNat else 0)

/-- LEN (R142): VALIDATE with `final = 0`, then the sum; 0 on an error. -/
def len (c : Config) (opcode : BitVec 8) (m1 m2 : BitVec 4) : LenOut :=
  let v := validate c opcode m1 m2 false
  match v.status, c.declared opcode with
  | .ok, some pc => ⟨.ok, .whole, BitVec.ofNat 4 (lengthSum c pc m1 m2)⟩
  | _, _ => ⟨v.status, v.slot, 0⟩

/-- The first `n` bytes PENC gives for a slot, each enabled (R143). -/
def fieldBytes (p : Parameter) : List (Byte × Bool) :=
  ((penc p.mode p.value).bytes.toList.take (penc p.mode p.value).n.toNat).map fun b => (b, true)

/-- The bytes IENC lays out with their write enables, from offset 0: opcode, mode byte, p1's field, p2's field (R143). The
mode byte of a present p1 is enabled unless the legacy gate is on and `m1 = 0` (R145). -/
def layout (c : Config) (pc : ParamCount) (x : Instruction) : List (Byte × Bool) :=
  [(x.opcode, true)]
    ++ (if 0 < pc.toNat then [(packModes x.p1.mode x.p2.mode, !c.legacyModeGate || x.p1.mode != 0)] else [])
    ++ (if 1 ≤ pc.toNat then fieldBytes x.p1 else [])
    ++ (if 2 ≤ pc.toNat then fieldBytes x.p2 else [])

/-- IENC's outputs for laid-out bytes: byte 0 and enable 0 beyond them. -/
def iencPorts (st : Status) (sl : Slot) (n : BitVec 4) (bytes : List (Byte × Bool)) : IencOut where
  status := st
  slot := sl
  len := n
  out := Vector.ofFn fun i => (bytes.getD i.val (0, false)).1
  we := Vector.ofFn fun i => (bytes.getD i.val (0, false)).2

/-- IENC (R143): `len` is LEN's even on an error; VALIDATE with `final = 1`, then the capacity check; nothing is enabled on
an error (60_exceptions.md R224). -/
def ienc (c : Config) (x : Instruction) (cap : BitVec 4) : IencOut :=
  let l := (len c x.opcode x.p1.mode x.p2.mode).len
  let v := validate c x.opcode x.p1.mode x.p2.mode true
  match v.status, c.declared x.opcode with
  | .ok, some pc =>
    if cap.toNat < l.toNat then iencPorts .capacity .whole l []
    else iencPorts .ok .whole l (layout c pc x)
  | _, _ => iencPorts v.status v.slot l []

/-- IDEC's outputs on an error: all 0 but status and slot (10_state.md R33). -/
def idecError (st : Status) (sl : Slot) : IdecOut :=
  ⟨st, sl, 0, 0, 0, 0, 0, 0, 0⟩

/-- The four bytes of a window from an offset, 0 beyond its end. -/
def windowField (win : Vector Byte 10) (off : Nat) : Vector Byte 4 :=
  Vector.ofFn fun i => win.toList.getD (off + i.val) 0

/-- IDEC's steps D4 and D5 and its fields, for a defined opcode byte and its mode tags (R144). -/
def idecFields (c : Config) (win : Vector Byte 10) (avail : BitVec 4) (opcode : BitVec 8) (pc : ParamCount)
    (m1 m2 : BitVec 4) : IdecOut :=
  let v := validate c opcode m1 m2 true
  if v.status ≠ .ok then idecError v.status v.slot
  else
    let l := (len c opcode m1 m2).len
    if avail.toNat < l.toNat then idecError .truncated .whole
    else
      let off1 := 1 + (if 0 < pc.toNat then 1 else 0)
      let v1 := if 1 ≤ pc.toNat then (pdec m1 (windowField win off1)).value else 0
      let off2 := if 1 ≤ pc.toNat then off1 + (width c m1).width.toNat else off1
      let v2 := if 2 ≤ pc.toNat then (pdec m2 (windowField win off2)).value else 0
      ⟨.ok, .whole, opcode, BitVec.ofNat 2 pc.toNat, m1, v1, m2, v2, l⟩

/-- IDEC (R144): the checks D1 to D5 in order, then the fields. -/
def idec (c : Config) (win : Vector Byte 10) (avail : BitVec 4) : IdecOut :=
  if avail.toNat < 1 then idecError .truncated .whole
  else
    let opcode := win[0]
    match c.declared opcode with
    | none => idecError .undefinedOpcode .whole
    | some .zero => idecFields c win avail opcode .zero 0 0
    | some pc =>
      if avail.toNat < 2 then idecError .truncated .whole
      else idecFields c win avail opcode pc (hiNibble win[1]) (loNibble win[1])

/-! ### Two-pass sizing (R151) -/

/-- The offset after instructions laid end to end from `base`, by LEN (R151, R22). -/
def endOffset (c : Config) (base : Nat) (xs : List Instruction) : Nat :=
  base + (xs.map fun x => (len c x.opcode x.p1.mode x.p2.mode).len.toNat).sum

/-- The start offset of each instruction: `s_1 = base`, `s_{j+1} = s_j + L_j` (R151). -/
def startOffsets (c : Config) : Nat → List Instruction → List Nat
  | _, [] => []
  | base, x :: xs => base :: startOffsets c (base + (len c x.opcode x.p1.mode x.p2.mode).len.toNat) xs

/-- Whether a mode is one of the 4-byte modes that a label may become without changing a length (R151). -/
def isFourByteMode (t : BitVec 4) : Bool :=
  t == 2 || t == 3 || t == 4

/-- Whether `q` is `p` with its label, if it has one, resolved to a 4-byte mode (R151). -/
def resolvesTo (c : Config) (p q : Parameter) : Bool :=
  if p.mode = c.labelOrdinal then isFourByteMode q.mode else q == p

/-- Whether `y` is `x` with every label resolved to a 4-byte mode (R151). -/
def resolvedForm (c : Config) (x y : Instruction) : Bool :=
  y.opcode == x.opcode && resolvesTo c x.p1 y.p1 && resolvesTo c x.p2 y.p2

end Sys2Proof.Machine
end

