-- ==== Sys2Proof/Machine/TextForm.lean ====
section
/-! DEFINITION. The text-form unit: PFMT and IFMT (42_text_form.md R191 to R202). Text is a sequence of characters; the two
brace characters are written by their code points, 123 and 125. -/

namespace Sys2Proof.Machine

/-- A lowercase hexadecimal digit (R191). -/
def hexDigit (d : Nat) : Char :=
  if d < 10 then Char.ofNat (48 + d) else Char.ofNat (87 + d)

/-- The digits of `n` put before `acc`, least significant first, at most `fuel` of them. -/
def hexDigits : Nat → Nat → Text → Text
  | 0, _, acc => acc
  | fuel + 1, n, acc =>
    if n < 16 then hexDigit n :: acc
    else hexDigits fuel (n / 16) (hexDigit (n % 16) :: acc)

/-- `hex(x)` for `x < 2^32`: base 16, no leading zeros, 0 for zero (R191). -/
def hex (x : Nat) : Text :=
  hexDigits 8 x []

/-- The brace form around `0x` and the digits of a number (R197, R198, R200). -/
def braced (x : Nat) : Text :=
  Char.ofNat 123 :: '0' :: 'x' :: (hex x ++ [Char.ofNat 125])

/-- `regname(v)`: the table's name, or the brace form (R195, R198). -/
def regname (c : Config) (v : BitVec 32) : Text :=
  (c.regName.lookup v).getD (braced v.toNat)

/-- PFMT (R192 to R197): total, one form per concrete mode and the brace form for every other tag. -/
def pfmt (c : Config) (p : Parameter) : Text :=
  match ConcreteMode.ofTag p.mode with
  | some .constant8 => '0' :: 'x' :: (hex p.value.toNat ++ ['u', '8'])
  | some .constant16 => '0' :: 'x' :: (hex p.value.toNat ++ ['u', '1', '6'])
  | some .constant32 => '0' :: 'x' :: (hex p.value.toNat ++ ['u', '3', '2'])
  | some .absoluteAddress => '#' :: hex p.value.toNat
  | some .relativeAddress =>
    if s32 p.value < 0 then '$' :: '-' :: hex (-(s32 p.value)).toNat else '$' :: hex (s32 p.value).toNat
  | some .registerAddress => '@' :: regname c p.value
  | some .register => regname c p.value
  | none => braced p.value.toNat

/-- The mnemonic IFMT prints for an opcode byte: the table's, or the brace form (R199, R200). -/
def mnemonicText (c : Config) (opcode : BitVec 8) : Text :=
  (c.mnemonic.lookup opcode).getD (braced opcode.toNat)

/-- IFMT (R199, R200): the mnemonic, each present parameter after one space, and a line feed. An undefined opcode byte prints
its brace form alone. -/
def ifmt (c : Config) (x : Instruction) : Text :=
  match c.declared x.opcode with
  | none => braced x.opcode.toNat ++ ['\n']
  | some pc =>
    mnemonicText c x.opcode
      ++ (if 1 ≤ pc.toNat then ' ' :: pfmt c x.p1 else [])
      ++ (if 2 ≤ pc.toNat then ' ' :: pfmt c x.p2 else [])
      ++ ['\n']

end Sys2Proof.Machine
end

