-- ==== Sys2Proof/Machine/Ops.lean ====
section
/-! DEFINITION. The named operations over the buffer and the state: byte reads and writes, the commit, the input window, the
landing of other callers' bytes, the return of outputs, and `handle`, what TXED does with one instruction. TXED takes no
exception (60_exceptions.md R226, R227): a non-OK status ends the operation and is returned, by `State.reply` for a single
operation and by `State.finish` for a stream procedure. -/

namespace Sys2Proof.Machine

/-! ### Memory -/

/-- What an offset that nothing has written reads as (log 6). -/
def Memory.blank : Byte := 0

/-- `MemRead(a, 1)` (00_scope.md R11). -/
def Memory.read : Memory → Nat → Byte
  | [], _ => Memory.blank
  | (x, y) :: t, a => if x = a then y else Memory.read t a

/-- `MemWrite(a, 1, b)` (R11), keeping the canonical form. -/
def Memory.write : Memory → Nat → Byte → Memory
  | [], a, b => if b = Memory.blank then [] else [(a, b)]
  | (x, y) :: t, a, b =>
    if a < x then (if b = Memory.blank then (x, y) :: t else (a, b) :: (x, y) :: t)
    else if a = x then (if b = Memory.blank then t else (a, b) :: t)
    else (x, y) :: Memory.write t a b

/-- Every byte of a list of writes, in order. -/
def Memory.writeAll (m : Memory) (cells : List Host.Cell) : Memory :=
  cells.foldl (fun m c => m.write c.1 c.2) m

/-- The canonical form: offsets strictly rising, no entry equal to what an unlisted offset reads as. -/
abbrev Memory.wf (m : Memory) : Prop :=
  m.Pairwise (fun p q => p.1 < q.1) ∧ ∀ p ∈ m, p.2 ≠ Memory.blank

/-- Whether every offset written lies inside a buffer of the given size (20_memory.md R46). -/
def inBuffer (size : Nat) (cells : List Host.Cell) : Bool :=
  cells.all fun c => decide (c.1 < size)

/-! ### Updates of the state -/

/-- The state with another buffer content. -/
def State.withMem (s : State) (m : Memory) : State := { s with mem := m }

/-- The state with another procedure state. -/
def State.withPhase (s : State) (p : Phase) : State := { s with phase := p }

/-- The state with other operations to be done. -/
def State.withCalls (s : State) (k : List Call) : State := { s with calls := k }

/-- The state with other bytes in flight and another draw counter. -/
def State.withInflight (s : State) (cells : List Host.Cell) (n : Nat) : State := { s with inflight := cells, draws := n }

/-- An operation's outputs are returned to the caller; nothing else changes (R24, R26). -/
def State.reply (s : State) (r : Reply) : State := { s with replies := s.replies ++ [r] }

/-- A stream procedure stops with a result (41_instruction_coder.md R149, R150; 70_reset_and_hazards.md R260). -/
def State.finish (s : State) (r : Reply) : State := (s.withPhase .idle).reply r

/-! ### Commit, window, landing -/

/-- The byte writes of an IENC result at write base `d`: byte `i` at `d + i` where `we[i] = 1` (R44). -/
def enabledWrites (d : Nat) (r : IencOut) : List Host.Cell :=
  (List.finRange 10).filterMap fun i => if r.we[i] then some (d + i.val, r.out[i]) else none

/-- The commit of an IENC result (R44); one that would write outside the buffer has no step (R46, R253). -/
def State.commit (s : State) (d : Nat) (r : IencOut) : Option State :=
  if inBuffer s.bufSize (enabledWrites d r) then some (s.withMem (s.mem.writeAll (enabledWrites d r))) else none

/-- Byte `i` of the window at an offset: the image's byte, read now (R53); past the end of the buffer a free value (log 7). -/
def State.windowByte (s : State) (offset i : Nat) : Byte :=
  if offset + i < s.bufSize then s.mem.read (offset + i) else Config.outsideByte (s.draws + i)

/-- The `n` bytes a caller presents of the image from an offset (R53). -/
def State.window (s : State) (offset n : Nat) : List Byte :=
  (List.range n).map (s.windowByte offset)

/-- The state once such a window is presented: the free values of a window that passes the end of the buffer are used up, and
nothing else changes (log 7). -/
def State.presented (s : State) (offset n : Nat) : State :=
  if offset + n ≤ s.bufSize then s else s.withInflight s.inflight (s.draws + n)

/-- Other callers' bytes that land now, by the free value `Config.commitLands`, each byte on its own (R50): the new buffer
content, the bytes still in flight and the draw counter. -/
def landing (n : Nat) : List Host.Cell → Memory → Memory × List Host.Cell × Nat
  | [], m => (m, [], n)
  | c :: t, m =>
    if Config.commitLands n then landing (n + 1) t (m.write c.1 c.2)
    else
      let r := landing (n + 1) t m
      (r.1, c :: r.2.1, r.2.2)

/-- Between two operations some of the bytes in flight land (R50). -/
def State.land (s : State) : State :=
  let r := landing s.draws s.inflight s.mem
  (s.withMem r.1).withInflight r.2.1 r.2.2

/-! ### What TXED does with one instruction -/

/-- IDEC's OK outputs for an instruction of a format variant: each value as its encoding gives it (R144, R146, R68). -/
def decodedAs (f : Format) (o : BitVec 8) (v1 v2 : BitVec 32) : IdecOut :=
  ⟨.ok, .whole, o, BitVec.ofNat 2 f.count.toNat, f.tag1, f.value1 v1, f.tag2, f.value2 v2, BitVec.ofNat 4 f.length⟩

/-- The body of EncodeSeq's loop for one instruction (R149): IENC with `cap = min(10, base + size - c)`; a non-OK status stops
the procedure and writes nothing; otherwise the result is committed at the cursor. -/
def encodeBody (x : Instruction) (pending : List Instruction) (limit cursor index : Nat) (s : State) :
    Host.Outcome State Fault Refusal :=
  let r := ienc s.config x (BitVec.ofNat 4 (min 10 (limit - cursor)))
  if r.status ≠ .ok then .next (s.finish (.encodeFailed index r.status r.slot cursor))
  else
    match s.commit cursor r with
    | none => .refused .commitOutsideBuffer
    | some t => .next (t.withPhase (.encoding pending limit (cursor + r.len.toNat) (index + 1)))

/-- What TXED does with an instruction of a format variant, in the procedure it is part of (log 3): with none in progress IDEC
returns it (R144); in DecodeSeq it becomes the next entry and the cursor moves past it (R150); in EncodeSeq it is encoded and
committed at the cursor (R143, R149). -/
def handle (f : Format) (o : BitVec 8) (v1 v2 : BitVec 32) (s : State) : Host.Outcome State Fault Refusal :=
  match s.phase with
  | .idle => .next (s.reply (.idec (decodedAs f o v1 v2)))
  | .decoding c e l => .next (s.withPhase (.decoding (c + f.length) e (l ++ [⟨c, decodedAs f o v1 v2⟩])))
  | .encoding p e c j => encodeBody ⟨o, ⟨f.tag1, v1⟩, ⟨f.tag2, v2⟩⟩ p e c j s

end Sys2Proof.Machine
end

