-- ==== Sys2Proof/Machine/FormatF0.lean ====
section
/-! DEFINITION. The meanings of format F0: an opcode of declared count 0 (30_encoding.md R68, R76). Each is one line over the shared
operation `handle`: what TXED does with the instruction in the procedure it is part of. -/

namespace Sys2Proof.Machine

/-- F0 (R143, R144, R68). -/
def execF0 (o : BitVec 8) (s : State) : Host.Outcome State Fault Refusal :=
  handle .f0 o 0 0 s

end Sys2Proof.Machine
end

