-- ==== Sys2Proof/Machine/FormatF1.lean ====
section
/-! DEFINITION. The meanings of format F1: an opcode of declared count 1, one definition per mode of p1 (30_encoding.md R68, R76). Each is one line over the shared
operation `handle`: what TXED does with the instruction in the procedure it is part of. -/

namespace Sys2Proof.Machine

/-- F1.constant8 (R143, R144, R68). -/
def execF1Constant8 (o : BitVec 8) (v1 : BitVec 32) (s : State) : Host.Outcome State Fault Refusal :=
  handle (.f1 .constant8) o v1 0 s

/-- F1.constant16 (R143, R144, R68). -/
def execF1Constant16 (o : BitVec 8) (v1 : BitVec 32) (s : State) : Host.Outcome State Fault Refusal :=
  handle (.f1 .constant16) o v1 0 s

/-- F1.constant32 (R143, R144, R68). -/
def execF1Constant32 (o : BitVec 8) (v1 : BitVec 32) (s : State) : Host.Outcome State Fault Refusal :=
  handle (.f1 .constant32) o v1 0 s

/-- F1.absolute_address (R143, R144, R68). -/
def execF1AbsoluteAddress (o : BitVec 8) (v1 : BitVec 32) (s : State) : Host.Outcome State Fault Refusal :=
  handle (.f1 .absoluteAddress) o v1 0 s

/-- F1.relative_address (R143, R144, R68). -/
def execF1RelativeAddress (o : BitVec 8) (v1 : BitVec 32) (s : State) : Host.Outcome State Fault Refusal :=
  handle (.f1 .relativeAddress) o v1 0 s

/-- F1.register_address (R143, R144, R68). -/
def execF1RegisterAddress (o : BitVec 8) (v1 : BitVec 32) (s : State) : Host.Outcome State Fault Refusal :=
  handle (.f1 .registerAddress) o v1 0 s

/-- F1.register (R143, R144, R68). -/
def execF1Register (o : BitVec 8) (v1 : BitVec 32) (s : State) : Host.Outcome State Fault Refusal :=
  handle (.f1 .register) o v1 0 s

end Sys2Proof.Machine
end

