-- ==== Sys2Proof/Machine/FormatF2.lean ====
section
/-! DEFINITION. The meanings of format F2: an opcode of declared count 2, one definition per pair of modes (30_encoding.md R68, R76). Each is one line over the shared
operation `handle`: what TXED does with the instruction in the procedure it is part of. -/

namespace Sys2Proof.Machine

/-- F2.constant8.constant8 (R143, R144, R68). -/
def execF2Constant8Constant8 (o : BitVec 8) (v1 : BitVec 32) (v2 : BitVec 32) (s : State) : Host.Outcome State Fault Refusal :=
  handle (.f2 .constant8 .constant8) o v1 v2 s

/-- F2.constant8.constant16 (R143, R144, R68). -/
def execF2Constant8Constant16 (o : BitVec 8) (v1 : BitVec 32) (v2 : BitVec 32) (s : State) : Host.Outcome State Fault Refusal :=
  handle (.f2 .constant8 .constant16) o v1 v2 s

/-- F2.constant8.constant32 (R143, R144, R68). -/
def execF2Constant8Constant32 (o : BitVec 8) (v1 : BitVec 32) (v2 : BitVec 32) (s : State) : Host.Outcome State Fault Refusal :=
  handle (.f2 .constant8 .constant32) o v1 v2 s

/-- F2.constant8.absolute_address (R143, R144, R68). -/
def execF2Constant8AbsoluteAddress (o : BitVec 8) (v1 : BitVec 32) (v2 : BitVec 32) (s : State) : Host.Outcome State Fault Refusal :=
  handle (.f2 .constant8 .absoluteAddress) o v1 v2 s

/-- F2.constant8.relative_address (R143, R144, R68). -/
def execF2Constant8RelativeAddress (o : BitVec 8) (v1 : BitVec 32) (v2 : BitVec 32) (s : State) : Host.Outcome State Fault Refusal :=
  handle (.f2 .constant8 .relativeAddress) o v1 v2 s

/-- F2.constant8.register_address (R143, R144, R68). -/
def execF2Constant8RegisterAddress (o : BitVec 8) (v1 : BitVec 32) (v2 : BitVec 32) (s : State) : Host.Outcome State Fault Refusal :=
  handle (.f2 .constant8 .registerAddress) o v1 v2 s

/-- F2.constant8.register (R143, R144, R68). -/
def execF2Constant8Register (o : BitVec 8) (v1 : BitVec 32) (v2 : BitVec 32) (s : State) : Host.Outcome State Fault Refusal :=
  handle (.f2 .constant8 .register) o v1 v2 s

/-- F2.constant16.constant8 (R143, R144, R68). -/
def execF2Constant16Constant8 (o : BitVec 8) (v1 : BitVec 32) (v2 : BitVec 32) (s : State) : Host.Outcome State Fault Refusal :=
  handle (.f2 .constant16 .constant8) o v1 v2 s

/-- F2.constant16.constant16 (R143, R144, R68). -/
def execF2Constant16Constant16 (o : BitVec 8) (v1 : BitVec 32) (v2 : BitVec 32) (s : State) : Host.Outcome State Fault Refusal :=
  handle (.f2 .constant16 .constant16) o v1 v2 s

/-- F2.constant16.constant32 (R143, R144, R68). -/
def execF2Constant16Constant32 (o : BitVec 8) (v1 : BitVec 32) (v2 : BitVec 32) (s : State) : Host.Outcome State Fault Refusal :=
  handle (.f2 .constant16 .constant32) o v1 v2 s

/-- F2.constant16.absolute_address (R143, R144, R68). -/
def execF2Constant16AbsoluteAddress (o : BitVec 8) (v1 : BitVec 32) (v2 : BitVec 32) (s : State) : Host.Outcome State Fault Refusal :=
  handle (.f2 .constant16 .absoluteAddress) o v1 v2 s

/-- F2.constant16.relative_address (R143, R144, R68). -/
def execF2Constant16RelativeAddress (o : BitVec 8) (v1 : BitVec 32) (v2 : BitVec 32) (s : State) : Host.Outcome State Fault Refusal :=
  handle (.f2 .constant16 .relativeAddress) o v1 v2 s

/-- F2.constant16.register_address (R143, R144, R68). -/
def execF2Constant16RegisterAddress (o : BitVec 8) (v1 : BitVec 32) (v2 : BitVec 32) (s : State) : Host.Outcome State Fault Refusal :=
  handle (.f2 .constant16 .registerAddress) o v1 v2 s

/-- F2.constant16.register (R143, R144, R68). -/
def execF2Constant16Register (o : BitVec 8) (v1 : BitVec 32) (v2 : BitVec 32) (s : State) : Host.Outcome State Fault Refusal :=
  handle (.f2 .constant16 .register) o v1 v2 s

/-- F2.constant32.constant8 (R143, R144, R68). -/
def execF2Constant32Constant8 (o : BitVec 8) (v1 : BitVec 32) (v2 : BitVec 32) (s : State) : Host.Outcome State Fault Refusal :=
  handle (.f2 .constant32 .constant8) o v1 v2 s

/-- F2.constant32.constant16 (R143, R144, R68). -/
def execF2Constant32Constant16 (o : BitVec 8) (v1 : BitVec 32) (v2 : BitVec 32) (s : State) : Host.Outcome State Fault Refusal :=
  handle (.f2 .constant32 .constant16) o v1 v2 s

/-- F2.constant32.constant32 (R143, R144, R68). -/
def execF2Constant32Constant32 (o : BitVec 8) (v1 : BitVec 32) (v2 : BitVec 32) (s : State) : Host.Outcome State Fault Refusal :=
  handle (.f2 .constant32 .constant32) o v1 v2 s

/-- F2.constant32.absolute_address (R143, R144, R68). -/
def execF2Constant32AbsoluteAddress (o : BitVec 8) (v1 : BitVec 32) (v2 : BitVec 32) (s : State) : Host.Outcome State Fault Refusal :=
  handle (.f2 .constant32 .absoluteAddress) o v1 v2 s

/-- F2.constant32.relative_address (R143, R144, R68). -/
def execF2Constant32RelativeAddress (o : BitVec 8) (v1 : BitVec 32) (v2 : BitVec 32) (s : State) : Host.Outcome State Fault Refusal :=
  handle (.f2 .constant32 .relativeAddress) o v1 v2 s

/-- F2.constant32.register_address (R143, R144, R68). -/
def execF2Constant32RegisterAddress (o : BitVec 8) (v1 : BitVec 32) (v2 : BitVec 32) (s : State) : Host.Outcome State Fault Refusal :=
  handle (.f2 .constant32 .registerAddress) o v1 v2 s

/-- F2.constant32.register (R143, R144, R68). -/
def execF2Constant32Register (o : BitVec 8) (v1 : BitVec 32) (v2 : BitVec 32) (s : State) : Host.Outcome State Fault Refusal :=
  handle (.f2 .constant32 .register) o v1 v2 s

/-- F2.absolute_address.constant8 (R143, R144, R68). -/
def execF2AbsoluteAddressConstant8 (o : BitVec 8) (v1 : BitVec 32) (v2 : BitVec 32) (s : State) : Host.Outcome State Fault Refusal :=
  handle (.f2 .absoluteAddress .constant8) o v1 v2 s

/-- F2.absolute_address.constant16 (R143, R144, R68). -/
def execF2AbsoluteAddressConstant16 (o : BitVec 8) (v1 : BitVec 32) (v2 : BitVec 32) (s : State) : Host.Outcome State Fault Refusal :=
  handle (.f2 .absoluteAddress .constant16) o v1 v2 s

/-- F2.absolute_address.constant32 (R143, R144, R68). -/
def execF2AbsoluteAddressConstant32 (o : BitVec 8) (v1 : BitVec 32) (v2 : BitVec 32) (s : State) : Host.Outcome State Fault Refusal :=
  handle (.f2 .absoluteAddress .constant32) o v1 v2 s

/-- F2.absolute_address.absolute_address (R143, R144, R68). -/
def execF2AbsoluteAddressAbsoluteAddress (o : BitVec 8) (v1 : BitVec 32) (v2 : BitVec 32) (s : State) : Host.Outcome State Fault Refusal :=
  handle (.f2 .absoluteAddress .absoluteAddress) o v1 v2 s

/-- F2.absolute_address.relative_address (R143, R144, R68). -/
def execF2AbsoluteAddressRelativeAddress (o : BitVec 8) (v1 : BitVec 32) (v2 : BitVec 32) (s : State) : Host.Outcome State Fault Refusal :=
  handle (.f2 .absoluteAddress .relativeAddress) o v1 v2 s

/-- F2.absolute_address.register_address (R143, R144, R68). -/
def execF2AbsoluteAddressRegisterAddress (o : BitVec 8) (v1 : BitVec 32) (v2 : BitVec 32) (s : State) : Host.Outcome State Fault Refusal :=
  handle (.f2 .absoluteAddress .registerAddress) o v1 v2 s

/-- F2.absolute_address.register (R143, R144, R68). -/
def execF2AbsoluteAddressRegister (o : BitVec 8) (v1 : BitVec 32) (v2 : BitVec 32) (s : State) : Host.Outcome State Fault Refusal :=
  handle (.f2 .absoluteAddress .register) o v1 v2 s

/-- F2.relative_address.constant8 (R143, R144, R68). -/
def execF2RelativeAddressConstant8 (o : BitVec 8) (v1 : BitVec 32) (v2 : BitVec 32) (s : State) : Host.Outcome State Fault Refusal :=
  handle (.f2 .relativeAddress .constant8) o v1 v2 s

/-- F2.relative_address.constant16 (R143, R144, R68). -/
def execF2RelativeAddressConstant16 (o : BitVec 8) (v1 : BitVec 32) (v2 : BitVec 32) (s : State) : Host.Outcome State Fault Refusal :=
  handle (.f2 .relativeAddress .constant16) o v1 v2 s

/-- F2.relative_address.constant32 (R143, R144, R68). -/
def execF2RelativeAddressConstant32 (o : BitVec 8) (v1 : BitVec 32) (v2 : BitVec 32) (s : State) : Host.Outcome State Fault Refusal :=
  handle (.f2 .relativeAddress .constant32) o v1 v2 s

/-- F2.relative_address.absolute_address (R143, R144, R68). -/
def execF2RelativeAddressAbsoluteAddress (o : BitVec 8) (v1 : BitVec 32) (v2 : BitVec 32) (s : State) : Host.Outcome State Fault Refusal :=
  handle (.f2 .relativeAddress .absoluteAddress) o v1 v2 s

/-- F2.relative_address.relative_address (R143, R144, R68). -/
def execF2RelativeAddressRelativeAddress (o : BitVec 8) (v1 : BitVec 32) (v2 : BitVec 32) (s : State) : Host.Outcome State Fault Refusal :=
  handle (.f2 .relativeAddress .relativeAddress) o v1 v2 s

/-- F2.relative_address.register_address (R143, R144, R68). -/
def execF2RelativeAddressRegisterAddress (o : BitVec 8) (v1 : BitVec 32) (v2 : BitVec 32) (s : State) : Host.Outcome State Fault Refusal :=
  handle (.f2 .relativeAddress .registerAddress) o v1 v2 s

/-- F2.relative_address.register (R143, R144, R68). -/
def execF2RelativeAddressRegister (o : BitVec 8) (v1 : BitVec 32) (v2 : BitVec 32) (s : State) : Host.Outcome State Fault Refusal :=
  handle (.f2 .relativeAddress .register) o v1 v2 s

/-- F2.register_address.constant8 (R143, R144, R68). -/
def execF2RegisterAddressConstant8 (o : BitVec 8) (v1 : BitVec 32) (v2 : BitVec 32) (s : State) : Host.Outcome State Fault Refusal :=
  handle (.f2 .registerAddress .constant8) o v1 v2 s

/-- F2.register_address.constant16 (R143, R144, R68). -/
def execF2RegisterAddressConstant16 (o : BitVec 8) (v1 : BitVec 32) (v2 : BitVec 32) (s : State) : Host.Outcome State Fault Refusal :=
  handle (.f2 .registerAddress .constant16) o v1 v2 s

/-- F2.register_address.constant32 (R143, R144, R68). -/
def execF2RegisterAddressConstant32 (o : BitVec 8) (v1 : BitVec 32) (v2 : BitVec 32) (s : State) : Host.Outcome State Fault Refusal :=
  handle (.f2 .registerAddress .constant32) o v1 v2 s

/-- F2.register_address.absolute_address (R143, R144, R68). -/
def execF2RegisterAddressAbsoluteAddress (o : BitVec 8) (v1 : BitVec 32) (v2 : BitVec 32) (s : State) : Host.Outcome State Fault Refusal :=
  handle (.f2 .registerAddress .absoluteAddress) o v1 v2 s

/-- F2.register_address.relative_address (R143, R144, R68). -/
def execF2RegisterAddressRelativeAddress (o : BitVec 8) (v1 : BitVec 32) (v2 : BitVec 32) (s : State) : Host.Outcome State Fault Refusal :=
  handle (.f2 .registerAddress .relativeAddress) o v1 v2 s

/-- F2.register_address.register_address (R143, R144, R68). -/
def execF2RegisterAddressRegisterAddress (o : BitVec 8) (v1 : BitVec 32) (v2 : BitVec 32) (s : State) : Host.Outcome State Fault Refusal :=
  handle (.f2 .registerAddress .registerAddress) o v1 v2 s

/-- F2.register_address.register (R143, R144, R68). -/
def execF2RegisterAddressRegister (o : BitVec 8) (v1 : BitVec 32) (v2 : BitVec 32) (s : State) : Host.Outcome State Fault Refusal :=
  handle (.f2 .registerAddress .register) o v1 v2 s

/-- F2.register.constant8 (R143, R144, R68). -/
def execF2RegisterConstant8 (o : BitVec 8) (v1 : BitVec 32) (v2 : BitVec 32) (s : State) : Host.Outcome State Fault Refusal :=
  handle (.f2 .register .constant8) o v1 v2 s

/-- F2.register.constant16 (R143, R144, R68). -/
def execF2RegisterConstant16 (o : BitVec 8) (v1 : BitVec 32) (v2 : BitVec 32) (s : State) : Host.Outcome State Fault Refusal :=
  handle (.f2 .register .constant16) o v1 v2 s

/-- F2.register.constant32 (R143, R144, R68). -/
def execF2RegisterConstant32 (o : BitVec 8) (v1 : BitVec 32) (v2 : BitVec 32) (s : State) : Host.Outcome State Fault Refusal :=
  handle (.f2 .register .constant32) o v1 v2 s

/-- F2.register.absolute_address (R143, R144, R68). -/
def execF2RegisterAbsoluteAddress (o : BitVec 8) (v1 : BitVec 32) (v2 : BitVec 32) (s : State) : Host.Outcome State Fault Refusal :=
  handle (.f2 .register .absoluteAddress) o v1 v2 s

/-- F2.register.relative_address (R143, R144, R68). -/
def execF2RegisterRelativeAddress (o : BitVec 8) (v1 : BitVec 32) (v2 : BitVec 32) (s : State) : Host.Outcome State Fault Refusal :=
  handle (.f2 .register .relativeAddress) o v1 v2 s

/-- F2.register.register_address (R143, R144, R68). -/
def execF2RegisterRegisterAddress (o : BitVec 8) (v1 : BitVec 32) (v2 : BitVec 32) (s : State) : Host.Outcome State Fault Refusal :=
  handle (.f2 .register .registerAddress) o v1 v2 s

/-- F2.register.register (R143, R144, R68). -/
def execF2RegisterRegister (o : BitVec 8) (v1 : BitVec 32) (v2 : BitVec 32) (s : State) : Host.Outcome State Fault Refusal :=
  handle (.f2 .register .register) o v1 v2 s

end Sys2Proof.Machine
end

