-- ==== Sys2Proof/Machine/Dispatch.lean ====
section
/-! DEFINITION. The dispatch: one arm per row of spec/opcode_table.json, each a direct call of its meaning. -/

namespace Sys2Proof.Machine

def exec (i : Instr) (s : State) : Host.Outcome State Fault Refusal :=
  match i with
  | .f0 o => Sys2Proof.Machine.execF0 o s
  | .f1Constant8 o v1 => Sys2Proof.Machine.execF1Constant8 o v1 s
  | .f1Constant16 o v1 => Sys2Proof.Machine.execF1Constant16 o v1 s
  | .f1Constant32 o v1 => Sys2Proof.Machine.execF1Constant32 o v1 s
  | .f1AbsoluteAddress o v1 => Sys2Proof.Machine.execF1AbsoluteAddress o v1 s
  | .f1RelativeAddress o v1 => Sys2Proof.Machine.execF1RelativeAddress o v1 s
  | .f1RegisterAddress o v1 => Sys2Proof.Machine.execF1RegisterAddress o v1 s
  | .f1Register o v1 => Sys2Proof.Machine.execF1Register o v1 s
  | .f2Constant8Constant8 o v1 v2 => Sys2Proof.Machine.execF2Constant8Constant8 o v1 v2 s
  | .f2Constant8Constant16 o v1 v2 => Sys2Proof.Machine.execF2Constant8Constant16 o v1 v2 s
  | .f2Constant8Constant32 o v1 v2 => Sys2Proof.Machine.execF2Constant8Constant32 o v1 v2 s
  | .f2Constant8AbsoluteAddress o v1 v2 => Sys2Proof.Machine.execF2Constant8AbsoluteAddress o v1 v2 s
  | .f2Constant8RelativeAddress o v1 v2 => Sys2Proof.Machine.execF2Constant8RelativeAddress o v1 v2 s
  | .f2Constant8RegisterAddress o v1 v2 => Sys2Proof.Machine.execF2Constant8RegisterAddress o v1 v2 s
  | .f2Constant8Register o v1 v2 => Sys2Proof.Machine.execF2Constant8Register o v1 v2 s
  | .f2Constant16Constant8 o v1 v2 => Sys2Proof.Machine.execF2Constant16Constant8 o v1 v2 s
  | .f2Constant16Constant16 o v1 v2 => Sys2Proof.Machine.execF2Constant16Constant16 o v1 v2 s
  | .f2Constant16Constant32 o v1 v2 => Sys2Proof.Machine.execF2Constant16Constant32 o v1 v2 s
  | .f2Constant16AbsoluteAddress o v1 v2 => Sys2Proof.Machine.execF2Constant16AbsoluteAddress o v1 v2 s
  | .f2Constant16RelativeAddress o v1 v2 => Sys2Proof.Machine.execF2Constant16RelativeAddress o v1 v2 s
  | .f2Constant16RegisterAddress o v1 v2 => Sys2Proof.Machine.execF2Constant16RegisterAddress o v1 v2 s
  | .f2Constant16Register o v1 v2 => Sys2Proof.Machine.execF2Constant16Register o v1 v2 s
  | .f2Constant32Constant8 o v1 v2 => Sys2Proof.Machine.execF2Constant32Constant8 o v1 v2 s
  | .f2Constant32Constant16 o v1 v2 => Sys2Proof.Machine.execF2Constant32Constant16 o v1 v2 s
  | .f2Constant32Constant32 o v1 v2 => Sys2Proof.Machine.execF2Constant32Constant32 o v1 v2 s
  | .f2Constant32AbsoluteAddress o v1 v2 => Sys2Proof.Machine.execF2Constant32AbsoluteAddress o v1 v2 s
  | .f2Constant32RelativeAddress o v1 v2 => Sys2Proof.Machine.execF2Constant32RelativeAddress o v1 v2 s
  | .f2Constant32RegisterAddress o v1 v2 => Sys2Proof.Machine.execF2Constant32RegisterAddress o v1 v2 s
  | .f2Constant32Register o v1 v2 => Sys2Proof.Machine.execF2Constant32Register o v1 v2 s
  | .f2AbsoluteAddressConstant8 o v1 v2 => Sys2Proof.Machine.execF2AbsoluteAddressConstant8 o v1 v2 s
  | .f2AbsoluteAddressConstant16 o v1 v2 => Sys2Proof.Machine.execF2AbsoluteAddressConstant16 o v1 v2 s
  | .f2AbsoluteAddressConstant32 o v1 v2 => Sys2Proof.Machine.execF2AbsoluteAddressConstant32 o v1 v2 s
  | .f2AbsoluteAddressAbsoluteAddress o v1 v2 => Sys2Proof.Machine.execF2AbsoluteAddressAbsoluteAddress o v1 v2 s
  | .f2AbsoluteAddressRelativeAddress o v1 v2 => Sys2Proof.Machine.execF2AbsoluteAddressRelativeAddress o v1 v2 s
  | .f2AbsoluteAddressRegisterAddress o v1 v2 => Sys2Proof.Machine.execF2AbsoluteAddressRegisterAddress o v1 v2 s
  | .f2AbsoluteAddressRegister o v1 v2 => Sys2Proof.Machine.execF2AbsoluteAddressRegister o v1 v2 s
  | .f2RelativeAddressConstant8 o v1 v2 => Sys2Proof.Machine.execF2RelativeAddressConstant8 o v1 v2 s
  | .f2RelativeAddressConstant16 o v1 v2 => Sys2Proof.Machine.execF2RelativeAddressConstant16 o v1 v2 s
  | .f2RelativeAddressConstant32 o v1 v2 => Sys2Proof.Machine.execF2RelativeAddressConstant32 o v1 v2 s
  | .f2RelativeAddressAbsoluteAddress o v1 v2 => Sys2Proof.Machine.execF2RelativeAddressAbsoluteAddress o v1 v2 s
  | .f2RelativeAddressRelativeAddress o v1 v2 => Sys2Proof.Machine.execF2RelativeAddressRelativeAddress o v1 v2 s
  | .f2RelativeAddressRegisterAddress o v1 v2 => Sys2Proof.Machine.execF2RelativeAddressRegisterAddress o v1 v2 s
  | .f2RelativeAddressRegister o v1 v2 => Sys2Proof.Machine.execF2RelativeAddressRegister o v1 v2 s
  | .f2RegisterAddressConstant8 o v1 v2 => Sys2Proof.Machine.execF2RegisterAddressConstant8 o v1 v2 s
  | .f2RegisterAddressConstant16 o v1 v2 => Sys2Proof.Machine.execF2RegisterAddressConstant16 o v1 v2 s
  | .f2RegisterAddressConstant32 o v1 v2 => Sys2Proof.Machine.execF2RegisterAddressConstant32 o v1 v2 s
  | .f2RegisterAddressAbsoluteAddress o v1 v2 => Sys2Proof.Machine.execF2RegisterAddressAbsoluteAddress o v1 v2 s
  | .f2RegisterAddressRelativeAddress o v1 v2 => Sys2Proof.Machine.execF2RegisterAddressRelativeAddress o v1 v2 s
  | .f2RegisterAddressRegisterAddress o v1 v2 => Sys2Proof.Machine.execF2RegisterAddressRegisterAddress o v1 v2 s
  | .f2RegisterAddressRegister o v1 v2 => Sys2Proof.Machine.execF2RegisterAddressRegister o v1 v2 s
  | .f2RegisterConstant8 o v1 v2 => Sys2Proof.Machine.execF2RegisterConstant8 o v1 v2 s
  | .f2RegisterConstant16 o v1 v2 => Sys2Proof.Machine.execF2RegisterConstant16 o v1 v2 s
  | .f2RegisterConstant32 o v1 v2 => Sys2Proof.Machine.execF2RegisterConstant32 o v1 v2 s
  | .f2RegisterAbsoluteAddress o v1 v2 => Sys2Proof.Machine.execF2RegisterAbsoluteAddress o v1 v2 s
  | .f2RegisterRelativeAddress o v1 v2 => Sys2Proof.Machine.execF2RegisterRelativeAddress o v1 v2 s
  | .f2RegisterRegisterAddress o v1 v2 => Sys2Proof.Machine.execF2RegisterRegisterAddress o v1 v2 s
  | .f2RegisterRegister o v1 v2 => Sys2Proof.Machine.execF2RegisterRegister o v1 v2 s

end Sys2Proof.Machine
end

