-- ==== Sys2Proof/Machine/Sequencer.lean ====
section
/-! DEFINITION. How one operation of the caller is carried out: the single operations, and one round of EncodeSeq and
DecodeSeq (41_instruction_coder.md R149, R150), each instruction through `exec`. -/

namespace Sys2Proof.Machine

/-- IDEC of the bytes presented, as a single operation (R144). -/
def performIdec (bytes : List Byte) (s : State) : Host.Outcome State Fault Refusal :=
  match decode s.config bytes with
  | .ok (i, _) => exec i s
  | .error r => .next (s.reply (.idec (idecError r.status r.slot)))

/-- IENC and the commit of its result (R143, R44). -/
def performCommit (x : Instruction) (cap : BitVec 4) (d : Nat) (s : State) : Host.Outcome State Fault Refusal :=
  match s.commit d (ienc s.config x cap) with
  | none => .refused .commitOutsideBuffer
  | some t => .next (t.reply (.ienc (ienc s.config x cap)))

/-- Another caller's commit begins: its enabled bytes are in flight (20_memory.md R50). -/
def performOtherCommit (x : Instruction) (cap : BitVec 4) (d : Nat) (s : State) : Host.Outcome State Fault Refusal :=
  if inBuffer s.bufSize (enabledWrites d (ienc s.config x cap)) then
    .next (s.withInflight (s.inflight ++ enabledWrites d (ienc s.config x cap)) s.draws)
  else .refused .commitOutsideBuffer

/-- IDEC of the image at an offset: the window is read now (R53). -/
def performIdecAt (offset : Nat) (avail : BitVec 4) (s : State) : Host.Outcome State Fault Refusal :=
  performIdec (s.window offset (min 10 avail.toNat)) (s.presented offset (min 10 avail.toNat))

/-- One operation, already taken off the list of those to be done. -/
def perform (k : Call) (s : State) : Host.Outcome State Fault Refusal :=
  match k with
  | .width m => .next (s.reply (.width (width s.config m)))
  | .penc m v => .next (s.reply (.penc (penc m v)))
  | .pdec m b => .next (s.reply (.pdec (pdec m b)))
  | .validate o m1 m2 f => .next (s.reply (.validate (validate s.config o m1 m2 f)))
  | .len o m1 m2 => .next (s.reply (.len (len s.config o m1 m2)))
  | .ienc x cap => .next (s.reply (.ienc (ienc s.config x cap)))
  | .iencCommit x cap d => performCommit x cap d s
  | .idec win avail => performIdec (win.toList.take avail.toNat) s
  | .idecAt offset avail => performIdecAt offset avail s
  | .pfmt p => .next (s.reply (.pfmt (pfmt s.config p)))
  | .ifmt x => .next (s.reply (.ifmt (ifmt s.config x)))
  | .encodeSeq xs base size => .next (s.withPhase (.encoding xs (base + size) base 1))
  | .decodeSeq base limit => .next (s.withPhase (.decoding base limit []))
  | .otherCommit x cap d => performOtherCommit x cap d s

/-- One round of EncodeSeq (R149): the next instruction, or the stop. A value that spells no instruction fails as IENC
reports it. -/
def encodeRound (pending : List Instruction) (limit cursor index : Nat) (s : State) : Host.Outcome State Fault Refusal :=
  match pending with
  | [] => .next (s.finish (.encodeDone cursor))
  | x :: rest =>
    match Instr.ofInstruction s.config x with
    | .ok i => exec i (s.withPhase (.encoding rest limit cursor index))
    | .error r => .next (s.finish (.encodeFailed index r.status r.slot cursor))

/-- One round of DecodeSeq (R150): the instruction at the cursor, or the stop. -/
def decodeRound (cursor limit : Nat) (listing : List Entry) (s : State) : Host.Outcome State Fault Refusal :=
  if cursor < limit then
    let t := s.presented cursor (min 10 (limit - cursor))
    match decode s.config (s.window cursor (min 10 (limit - cursor))) with
    | .ok (i, _) => exec i t
    | .error r => .next (t.finish (.decodeFailed cursor r.status r.slot listing))
  else .next (s.finish (.decodeDone listing))

/-- The next operation: a round of the procedure in progress, else the oldest operation to be done, else nothing. -/
def operate (s : State) : Host.Outcome State Fault Refusal :=
  match s.phase with
  | .encoding p e c j => encodeRound p e c j s
  | .decoding c e l => decodeRound c e l s
  | .idle =>
    match s.calls with
    | [] => .next s
    | k :: ks => perform k (s.withCalls ks)

/-- Where DecodeSeq's cursor stands, 0 where no walk is in progress. -/
def State.fetchOffset (s : State) : Nat :=
  match s.phase with
  | .decoding c _ _ => c
  | _ => 0

/-- A walk from `fetchOffset` whose window is ten bytes; a walk in progress keeps its listing. -/
def State.fetchPhase (s : State) : Phase :=
  match s.phase with
  | .decoding c e l => .decoding c (max e (c + 10)) l
  | _ => .decoding 0 10 []

/-- Ten bytes of an image placed at an offset. -/
def placed (offset : Nat) (bytes : List Byte) : List Host.Cell :=
  bytes.mapIdx fun i b => (offset + i, b)

/-- The state in which the next step fetches the given bytes under the given `P_PCOUNT` entry. -/
def State.withFetchBytes (s : State) (entry : BitVec 8 × ParamCount) (bytes : List Byte) : State :=
  { s with
    config := { s.config with pCount := entry :: s.config.pCount }
    bufSize := max s.bufSize (s.fetchOffset + 10)
    mem := s.mem.writeAll (placed s.fetchOffset bytes)
    phase := s.fetchPhase
    inflight := [] }

end Sys2Proof.Machine
end

