-- ==== Sys2Proof/Machine/Step.lean ====
section
/-! DEFINITION. The step: bytes of other callers land, then one operation of the caller is carried out (20_memory.md R49,
R50; 70_reset_and_hazards.md R259). -/

namespace Sys2Proof.Machine

/-- One step of the machine. -/
def step (s : State) : Host.Outcome State Fault Refusal :=
  operate s.land

/-- The state with an opcode-table word stored where the next step fetches: in the image at DecodeSeq's cursor, with the
`P_PCOUNT` entry its row asks for, a buffer that holds it, and nothing of other callers in flight (logs 9, 10). -/
def State.withFetchWord (s : State) (nbits w : Nat) : State :=
  s.withFetchBytes (tableEntry nbits w) (tableBytes nbits w)

end Sys2Proof.Machine
end

