-- ==== Sys2Proof/Safety.lean ====
section
/-! DEFINITION. What counts as a safe run: the invariant of every state, and the callers' duty of 70_reset_and_hazards.md
R253 under which no step stops. -/

namespace Sys2Proof.Machine

/-- The invariant: the buffer's content is in canonical form, and every byte listed or in flight lies inside the buffer. -/
def State.Inv (s : State) : Prop :=
  s.mem.wf ∧ (∀ p ∈ s.mem, p.1 < s.bufSize) ∧ ∀ p ∈ s.inflight, p.1 < s.bufSize

/-- A call that commits only inside the buffer: a `cap` or region no larger than what remains of it (R46, R253). -/
def Call.honest (size : Nat) : Call → Prop
  | .iencCommit _ cap d => d + cap.toNat ≤ size
  | .otherCommit _ cap d => d + cap.toNat ≤ size
  | .encodeSeq _ base sz => base + sz ≤ size
  | _ => True

/-- A stream procedure that commits only inside the buffer. -/
def Phase.honest (size : Nat) : Phase → Prop
  | .encoding _ limit _ _ => limit ≤ size
  | .idle => True
  | .decoding _ _ _ => True

/-- Every operation in progress or still to be done commits only inside the buffer. -/
def State.Honest (s : State) : Prop :=
  s.phase.honest s.bufSize ∧ ∀ k ∈ s.calls, k.honest s.bufSize

/-- A step is safe from a state when it answers a next state. -/
def State.Safe (s : State) : Prop :=
  ∃ t, step s = .next t

end Sys2Proof.Machine
end

