-- ==== Sys2Proof/Certificates/Slice0/Obligations.lean ====
section
/-! DEFINITION. The statements about the model, for the provers. The helper definitions under Sys2Proof.Statements spell out,
in the words of the spec's rules, what a statement says of each instruction. -/

namespace Sys2Proof.Statements

open Sys2Proof Sys2Proof.Machine

/-- IDEC's outputs with status OK (10_state.md R33). -/
def okOut (o : BitVec 8) (pc : BitVec 2) (m1 : BitVec 4) (v1 : BitVec 32) (m2 : BitVec 4) (v2 : BitVec 32)
    (n : BitVec 4) : IdecOut :=
  ⟨.ok, .whole, o, pc, m1, v1, m2, v2, n⟩

/-- `i` is decoded with the result `r`: as the next entry of a DecodeSeq in progress, whose cursor moves by `r.len`, and as
the answer of a single IDEC. Nothing else of the state changes (R144, R150). -/
def DecodesAs (i : Instr) (r : IdecOut) : Prop :=
  (∀ (s : Machine.State) (c e : Nat) (l : List Entry), s.phase = .decoding c e l →
    exec i s = .next { s with phase := .decoding (c + r.len.toNat) e (l ++ [⟨c, r⟩]) }) ∧
  (∀ s : Machine.State, s.phase = .idle → exec i s = .next { s with replies := s.replies ++ [.idec r] })

/-- Byte `k` of an instruction encoded as `bytes` is left as it was: under the legacy gate, the mode byte of a constant8 p1
(R77, R145). -/
def LeftAlone (s : Machine.State) (bytes : List Byte) (k : Nat) : Prop :=
  s.config.legacyModeGate = true ∧ k = 1 ∧ hiNibble (bytes.getD 1 0) = 0

/-- In EncodeSeq, `i`, whose opcode byte `o` has count `n`, is committed at the cursor as `bytes` (low offset first), byte 1
under the legacy gate as it was; every other byte of the buffer reads as before, and only the cursor and the index of the
procedure change besides. It does so where the bytes fit the region and the buffer (R143, R145, R149, R44). -/
def EncodesAs (i : Instr) (o : BitVec 8) (n : ParamCount) (bytes : List Byte) : Prop :=
  ∀ (s : Machine.State) (p : List Instruction) (e c j : Nat), s.phase = .encoding p e c j →
    s.config.declared o = some n → s.mem.wf → c + bytes.length ≤ e → c + bytes.length ≤ s.bufSize →
    ∃ t : Machine.State, exec i s = .next t ∧
      (∀ k, k < bytes.length → ¬ LeftAlone s bytes k → t.mem.read (c + k) = bytes.getD k 0) ∧
      (∀ k, LeftAlone s bytes k → t.mem.read (c + k) = s.mem.read (c + k)) ∧
      (∀ a, a < c ∨ c + bytes.length ≤ a → t.mem.read a = s.mem.read a) ∧
      t = { s with mem := t.mem, phase := .encoding p e (c + bytes.length) (j + 1) }

/-- A tag with no width: 7 or above and not the label's (30_encoding.md R63). -/
def NoWidth (c : Config) (t : BitVec 4) : Prop :=
  7 ≤ t.toNat ∧ t ≠ c.labelOrdinal

/-- Byte `i` of a 32-bit value, `v[8i+7:8i]` (00_scope.md R8). -/
def byteOf (v : BitVec 32) (i : Nat) : Byte :=
  v.extractLsb' (8 * i) 8

/-- What a decoded slot holds for a parameter encoded with mode `t` and value `v`: the mode and the value truncated to the
mode's width (41_instruction_coder.md R146). -/
def truncated (c : Config) (p : Parameter) : Parameter :=
  ⟨p.mode, BitVec.ofNat 32 (p.value.toNat % 2 ^ (8 * (width c p.mode).width.toNat))⟩

/-- What IDEC gives for an instruction of a declared count after its encoding: present slots truncated, absent ones (0, 0)
(R146). -/
def decodedBack (c : Config) (pc : ParamCount) (x : Instruction) (n : BitVec 4) : IdecOut :=
  let q1 := if pc = .zero then ⟨0, 0⟩ else truncated c x.p1
  let q2 := if pc = .two then truncated c x.p2 else ⟨0, 0⟩
  okOut x.opcode (BitVec.ofNat 2 pc.toNat) q1.mode q1.value q2.mode q2.value n

/-- The instruction value an IDEC result stands for. -/
def instructionOf (r : IdecOut) : Instruction :=
  ⟨r.opcode, ⟨r.m1, r.v1⟩, ⟨r.m2, r.v2⟩⟩

/-- The value of a lowercase hexadecimal digit; 16 for any other character. -/
def digitValue (ch : Char) : Nat :=
  if 48 ≤ ch.toNat ∧ ch.toNat ≤ 57 then ch.toNat - 48
  else if 97 ≤ ch.toNat ∧ ch.toNat ≤ 102 then ch.toNat - 87
  else 16

/-- The number a text spells in base 16, most significant digit first. -/
def hexValue (t : Text) : Nat :=
  t.foldl (fun n ch => 16 * n + digitValue ch) 0

/-- DecodeSeq's listing of well-formed instructions laid end to end from an offset (R150, R22). -/
def listingOf : Nat → List Instr → List Entry
  | _, [] => []
  | a, i :: is => ⟨a, decodedAs i.view.format i.view.opcode i.view.v1 i.view.v2⟩ :: listingOf (a + i.view.format.length) is

/-- The bytes instructions of a list take together. -/
def totalLength (is : List Instr) : Nat :=
  (is.map fun i => i.view.format.length).sum

/-- A window that shows the buffer from an offset, as far as `n` bytes. -/
def Shows (m : Memory) (d n : Nat) (win : Vector Byte 10) : Prop :=
  ∀ k : Fin 10, k.val < n → win[k] = m.read (d + k.val)

/-- A window presented of the image from an offset: the image's bytes as far as the buffer goes, 0 from index `n` on (R53, R150).
Past the end of the buffer nothing constrains the bytes below `n` (log 7). -/
def Presents (s : Machine.State) (d n : Nat) (win : Vector Byte 10) : Prop :=
  (∀ k : Fin 10, k.val < n → d + k.val < s.bufSize → win[k] = s.mem.read (d + k.val)) ∧
  ∀ k : Fin 10, n ≤ k.val → win[k] = 0

/-- `t` is `s` after an operation that only returned `r`. -/
def Answered (s : Machine.State) (ks : List Call) (r : Reply) (t : Machine.State) : Prop :=
  t = { s with calls := ks, replies := s.replies ++ [r] }

end Sys2Proof.Statements

open Sys2Proof Sys2Proof.Machine Sys2Proof.Statements

/-- R101 (and the table of R64): WIDTH of every tag, for every label ordinal. -/
def Obligations.WidthTable : Prop :=
  ∀ c : Config, width c 0 = ⟨true, 1⟩ ∧ width c 1 = ⟨true, 2⟩ ∧ width c 2 = ⟨true, 4⟩ ∧ width c 3 = ⟨true, 4⟩ ∧
    width c 4 = ⟨true, 4⟩ ∧ width c 5 = ⟨true, 1⟩ ∧ width c 6 = ⟨true, 1⟩ ∧ width c c.labelOrdinal = ⟨true, 4⟩ ∧
    (∀ t, NoWidth c t → width c t = ⟨false, 0⟩)

/-- R102: the bytes PENC writes for every tag. -/
def Obligations.PencTable : Prop :=
  ∀ (t : BitVec 4) (v : BitVec 32),
    (t = 0 ∨ t = 5 ∨ t = 6 → penc t v = ⟨1, #v[byteOf v 0, 0, 0, 0]⟩) ∧
    (t = 1 → penc t v = ⟨2, #v[byteOf v 0, byteOf v 1, 0, 0]⟩) ∧
    (t = 2 ∨ t = 3 ∨ t = 4 → penc t v = ⟨4, #v[byteOf v 0, byteOf v 1, byteOf v 2, byteOf v 3]⟩) ∧
    (7 ≤ t.toNat → penc t v = ⟨0, #v[0, 0, 0, 0]⟩)

/-- R103: the value PDEC assembles for every tag, as the sum of R10. -/
def Obligations.PdecTable : Prop :=
  ∀ b0 b1 b2 b3 : Byte,
    (∀ t : BitVec 4, t = 0 ∨ t = 5 ∨ t = 6 → pdec t #v[b0, b1, b2, b3] = ⟨true, b0.setWidth 32⟩) ∧
    pdec 1 #v[b0, b1, b2, b3] = ⟨true, BitVec.ofNat 32 (b0.toNat + 2 ^ 8 * b1.toNat)⟩ ∧
    (∀ t : BitVec 4, t = 2 ∨ t = 3 ∨ t = 4 → pdec t #v[b0, b1, b2, b3] =
      ⟨true, BitVec.ofNat 32 (b0.toNat + 2 ^ 8 * b1.toNat + 2 ^ 16 * b2.toNat + 2 ^ 24 * b3.toNat)⟩) ∧
    (∀ t : BitVec 4, 7 ≤ t.toNat → pdec t #v[b0, b1, b2, b3] = ⟨false, 0⟩)

/-- R113: PENC then PDEC truncates to the width, and PDEC then PENC reproduces the field bytes. -/
def Obligations.ParameterRoundTrip : Prop :=
  (∀ (m : ConcreteMode) (v : BitVec 32),
    (penc m.tag v).n.toNat = m.width ∧
    pdec m.tag (penc m.tag v).bytes = ⟨true, BitVec.ofNat 32 (v.toNat % 2 ^ (8 * m.width))⟩ ∧
    (m = .relativeAddress → m.width = 4 ∧ s32 (pdec m.tag (penc m.tag v).bytes).value = s32 v)) ∧
  (∀ (m : ConcreteMode) (b : Vector Byte 4) (k : Fin 4), k.val < m.width →
    (penc m.tag (pdec m.tag b).value).bytes[k] = b[k])

/-- R141: VALIDATE's result for every input, count by count. -/
def Obligations.ValidateReportsFirstFailure : Prop :=
  ∀ (c : Config) (o : BitVec 8) (m1 m2 : BitVec 4) (fin : Bool),
    (c.declared o = none → validate c o m1 m2 fin = ⟨.undefinedOpcode, .whole⟩) ∧
    (c.declared o = some .zero →
      (m1 ≠ 0 → validate c o m1 m2 fin = ⟨.absentModeNonzero, .p1⟩) ∧
      (m1 = 0 → m2 ≠ 0 → validate c o m1 m2 fin = ⟨.absentModeNonzero, .p2⟩) ∧
      (m1 = 0 → m2 = 0 → validate c o m1 m2 fin = ⟨.ok, .whole⟩)) ∧
    (c.declared o = some .one →
      (NoWidth c m1 → validate c o m1 m2 fin = ⟨.unknownMode, .p1⟩) ∧
      (¬ NoWidth c m1 → m2 ≠ 0 → validate c o m1 m2 fin = ⟨.absentModeNonzero, .p2⟩) ∧
      (m1 = c.labelOrdinal → m2 = 0 →
        validate c o m1 m2 fin = if fin then ⟨.unresolvedLabel, .p1⟩ else ⟨.ok, .whole⟩) ∧
      (¬ NoWidth c m1 → m1 ≠ c.labelOrdinal → m2 = 0 → validate c o m1 m2 fin = ⟨.ok, .whole⟩)) ∧
    (c.declared o = some .two →
      (NoWidth c m1 → validate c o m1 m2 fin = ⟨.unknownMode, .p1⟩) ∧
      (¬ NoWidth c m1 → NoWidth c m2 → validate c o m1 m2 fin = ⟨.unknownMode, .p2⟩) ∧
      (m1 = c.labelOrdinal → ¬ NoWidth c m2 →
        validate c o m1 m2 fin = if fin then ⟨.unresolvedLabel, .p1⟩ else ⟨.ok, .whole⟩) ∧
      (¬ NoWidth c m1 → m1 ≠ c.labelOrdinal → m2 = c.labelOrdinal →
        validate c o m1 m2 fin = if fin then ⟨.unresolvedLabel, .p2⟩ else ⟨.ok, .whole⟩) ∧
      (¬ NoWidth c m1 → m1 ≠ c.labelOrdinal → ¬ NoWidth c m2 → m2 ≠ c.labelOrdinal →
        validate c o m1 m2 fin = ⟨.ok, .whole⟩))

/-- R142: LEN is VALIDATE with final = 0, then the sum of the widths of the present slots; the 4-bit port never overflows. -/
def Obligations.LenIsTheSumOfWidths : Prop :=
  ∀ (c : Config) (o : BitVec 8) (m1 m2 : BitVec 4),
    (len c o m1 m2).status = (validate c o m1 m2 false).status ∧ (len c o m1 m2).slot = (validate c o m1 m2 false).slot ∧
    (len c o m1 m2).status ≠ .unresolvedLabel ∧
    ((len c o m1 m2).status ≠ .ok → (len c o m1 m2).len = 0) ∧
    ((len c o m1 m2).status = .ok → 1 ≤ (len c o m1 m2).len.toNat ∧ (len c o m1 m2).len.toNat ≤ 10 ∧
      ((c.declared o = some .zero ∧ (len c o m1 m2).len.toNat = 1) ∨
       (c.declared o = some .one ∧ (len c o m1 m2).len.toNat = 1 + 1 + (width c m1).width.toNat) ∨
       (c.declared o = some .two ∧
         (len c o m1 m2).len.toNat = 1 + 1 + (width c m1).width.toNat + (width c m2).width.toNat)))

/-- R151: resolving every label to a 4-byte mode leaves the start offsets of the first pass correct. -/
def Obligations.ResolvedLabelsKeepOffsets : Prop :=
  ∀ (c : Config) (base : Nat) (xs ys : List Instruction),
    List.Forall₂ (fun x y => resolvedForm c x y = true) xs ys →
    (∀ x ∈ xs, (len c x.opcode x.p1.mode x.p2.mode).status = .ok) →
    startOffsets c base ys = startOffsets c base xs ∧ endOffset c base ys = endOffset c base xs

/-- R224, first bullet: a non-OK IENC enables no byte, so its commit leaves the state as it was. -/
def Obligations.IencErrorWritesNothing : Prop :=
  ∀ (c : Config) (x : Instruction) (cap : BitVec 4), (ienc c x cap).status ≠ .ok →
    (∀ k : Fin 10, (ienc c x cap).we[k] = false) ∧
    (∀ (s : Machine.State) (d : Nat), s.commit d (ienc c x cap) = some s)

/-- R143 and R225: IENC reports VALIDATE's status for emission, then CAPACITY, then OK; its len is LEN's even on an error. -/
def Obligations.IencStatusOrder : Prop :=
  ∀ (c : Config) (x : Instruction) (cap : BitVec 4),
    (ienc c x cap).len = (len c x.opcode x.p1.mode x.p2.mode).len ∧
    ((validate c x.opcode x.p1.mode x.p2.mode true).status ≠ .ok →
      (ienc c x cap).status = (validate c x.opcode x.p1.mode x.p2.mode true).status ∧
      (ienc c x cap).slot = (validate c x.opcode x.p1.mode x.p2.mode true).slot) ∧
    ((validate c x.opcode x.p1.mode x.p2.mode true).status = .ok →
      (cap.toNat < (ienc c x cap).len.toNat → (ienc c x cap).status = .capacity ∧ (ienc c x cap).slot = .whole) ∧
      ((ienc c x cap).len.toNat ≤ cap.toNat → (ienc c x cap).status = .ok ∧ (ienc c x cap).slot = .whole))

/-- R68 against R143: IENC's pseudocode produces, for every row of the opcode table, the bytes the row's encoding spells. -/
def Obligations.IencWritesTheRowEncoding : Prop :=
  ∀ (c : Config) (i : Instr) (cap : BitVec 4), i.countOk c = true → c.legacyModeGate = false →
    (encode i).length ≤ cap.toNat →
    (ienc c i.toInstruction cap).status = .ok ∧ (ienc c i.toInstruction cap).slot = .whole ∧
    (ienc c i.toInstruction cap).len.toNat = (encode i).length ∧
    (∀ k : Fin 10, (ienc c i.toInstruction cap).we[k] = decide (k.val < (encode i).length) ∧
      (ienc c i.toInstruction cap).out[k] = (encode i).getD k.val 0)

/-- R148: the enabled bytes are exactly the first len, the offset reached at the end is len, and the gate touches byte 1 only. -/
def Obligations.LengthAgreement : Prop :=
  ∀ (c : Config) (x : Instruction) (cap : BitVec 4), (ienc c x cap).status = .ok →
    (ienc c x cap).len = (len c x.opcode x.p1.mode x.p2.mode).len ∧
    (c.legacyModeGate = false → ∀ k : Fin 10, (ienc c x cap).we[k] = decide (k.val < (ienc c x cap).len.toNat)) ∧
    (∀ k : Fin 10, k.val ≠ 1 → (ienc c x cap).we[k] = decide (k.val < (ienc c x cap).len.toNat)) ∧
    (∀ pc, c.declared x.opcode = some pc → (layout c pc x).length = (ienc c x cap).len.toNat)

/-- R145: what the legacy gate changes of an IENC result, and that byte 1 keeps the destination's content. -/
def Obligations.LegacyGateDropsByteOneOnly : Prop :=
  ∀ (c : Config) (x : Instruction) (cap : BitVec 4),
    let off := ienc { c with legacyModeGate := false } x cap
    let on := ienc { c with legacyModeGate := true } x cap
    on.status = off.status ∧ on.slot = off.slot ∧ on.len = off.len ∧ on.out = off.out ∧
    (∀ k : Fin 10, k.val ≠ 1 → on.we[k] = off.we[k]) ∧
    (on.we[1] = true ↔ off.we[1] = true ∧ x.p1.mode ≠ 0) ∧
    (off.we[1] = true ↔ off.status = .ok ∧ ∃ pc, c.declared x.opcode = some pc ∧ pc ≠ .zero) ∧
    (off.we[1] = true → x.p1.mode = 0 → on.out[1] = x.p2.mode.setWidth 8 ∧
      ∀ (s t : Machine.State) (d : Nat), s.commit d on = some t → t.mem.read (d + 1) = s.mem.read (d + 1))

/-- R146: an instruction encoded and committed decodes back, every value truncated to its width. -/
def Obligations.EncodeThenDecode : Prop :=
  ∀ (s t : Machine.State) (d : Nat) (x : Instruction) (cap : BitVec 4) (win : Vector Byte 10),
    let r := ienc s.config x cap
    s.mem.wf → r.status = .ok → s.commit d r = some t →
    (s.config.legacyModeGate = false ∨ x.p1.mode ≠ 0 ∨ s.mem.read (d + 1) = packModes x.p1.mode x.p2.mode) →
    Shows t.mem d r.len.toNat win →
    ∃ pc, s.config.declared x.opcode = some pc ∧ idec t.config win r.len = decodedBack s.config pc x r.len

/-- R147: what IDEC accepts, IENC reproduces; and two windows with one result agree in their first len bytes. -/
def Obligations.DecodeThenEncode : Prop :=
  ∀ (c : Config) (win : Vector Byte 10) (avail : BitVec 4), (idec c win avail).status = .ok →
    (∀ cap : BitVec 4, c.legacyModeGate = false → (idec c win avail).len.toNat ≤ cap.toNat →
      (ienc c (instructionOf (idec c win avail)) cap).status = .ok ∧
      (ienc c (instructionOf (idec c win avail)) cap).len = (idec c win avail).len ∧
      (∀ k : Fin 10,
        (ienc c (instructionOf (idec c win avail)) cap).we[k] = decide (k.val < (idec c win avail).len.toNat) ∧
        (k.val < (idec c win avail).len.toNat →
          (ienc c (instructionOf (idec c win avail)) cap).out[k] = win[k]))) ∧
    (∀ (win' : Vector Byte 10) (avail' : BitVec 4), idec c win' avail' = idec c win avail →
      ∀ k : Fin 10, k.val < (idec c win avail).len.toNat → win'[k] = win[k])

/-- R33: when the status is not OK every IDEC output but status and slot is 0. -/
def Obligations.IdecErrorZeroesOutputs : Prop :=
  ∀ (c : Config) (win : Vector Byte 10) (avail : BitVec 4), (idec c win avail).status ≠ .ok →
    ∃ st sl, st ≠ .ok ∧ idec c win avail = ⟨st, sl, 0, 0, 0, 0, 0, 0, 0⟩

/-- R144 and R225: IDEC's checks D1 to D5 in their order, and OK when none fails. -/
def Obligations.IdecCheckOrder : Prop :=
  ∀ (c : Config) (win : Vector Byte 10) (avail : BitVec 4),
    (avail = 0 → idec c win avail = idecError .truncated .whole) ∧
    (1 ≤ avail.toNat → c.declared win[0] = none → idec c win avail = idecError .undefinedOpcode .whole) ∧
    (1 ≤ avail.toNat → c.declared win[0] = some .zero → idec c win avail = okOut win[0] 0 0 0 0 0 1) ∧
    (∀ pc, pc ≠ .zero → c.declared win[0] = some pc →
      (avail.toNat = 1 → idec c win avail = idecError .truncated .whole) ∧
      (2 ≤ avail.toNat →
        ((validate c win[0] (hiNibble win[1]) (loNibble win[1]) true).status ≠ .ok →
          idec c win avail =
            idecError (validate c win[0] (hiNibble win[1]) (loNibble win[1]) true).status
              (validate c win[0] (hiNibble win[1]) (loNibble win[1]) true).slot) ∧
        ((validate c win[0] (hiNibble win[1]) (loNibble win[1]) true).status = .ok →
          (avail.toNat < (len c win[0] (hiNibble win[1]) (loNibble win[1])).len.toNat →
            idec c win avail = idecError .truncated .whole) ∧
          ((len c win[0] (hiNibble win[1]) (loNibble win[1])).len.toNat ≤ avail.toNat →
            (idec c win avail).status = .ok))))

/-- R222: the statuses an operation cannot return (that the others can be returned is shown by the tests). -/
def Obligations.StatusesPerOperation : Prop :=
  ∀ (c : Config) (o : BitVec 8) (m1 m2 : BitVec 4) (fin : Bool) (x : Instruction) (cap avail : BitVec 4)
    (win : Vector Byte 10),
    (validate c o m1 m2 fin).status ≠ .capacity ∧ (validate c o m1 m2 fin).status ≠ .truncated ∧
    (validate c o m1 m2 false).status ≠ .unresolvedLabel ∧
    (len c o m1 m2).status ≠ .unresolvedLabel ∧ (len c o m1 m2).status ≠ .capacity ∧
    (len c o m1 m2).status ≠ .truncated ∧
    (ienc c x cap).status ≠ .truncated ∧ (idec c win avail).status ≠ .capacity

/-- R144 against R65 to R74: IDEC's pseudocode and the table-driven decoder that step uses give the same answer on every window. -/
def Obligations.DecoderAgreesWithIdec : Prop :=
  ∀ (c : Config) (win : Vector Byte 10) (avail : BitVec 4),
    match decode c (win.toList.take avail.toNat) with
    | .ok (i, rest) =>
      idec c win avail = decodedAs i.view.format i.view.opcode i.view.v1 i.view.v2 ∧
      rest = (win.toList.take avail.toNat).drop (idec c win avail).len.toNat
    | .error r => idec c win avail = idecError r.status r.slot ∧ r.status ≠ .ok

/-- Every well-formed instruction of every row decodes back from its encoding, whatever bytes follow (R65, R68, R73). -/
def Obligations.DecodeOfEncode : Prop :=
  ∀ (c : Config) (i : Instr) (rest : List Byte), i.WellFormed c = true → decode c (encode i ++ rest) = .ok (i, rest)

/-- Whatever the decoder accepts is the encoding of the instruction it gives: no other bytes spell it (R74, R69). -/
def Obligations.EncodeOfDecode : Prop :=
  ∀ (c : Config) (bs rest : List Byte) (i : Instr), decode c bs = .ok (i, rest) →
    i.WellFormed c = true ∧ bs = encode i ++ rest

/-- Words of 95_test_vectors.md, written out from the encoding, decode to the instructions they stand for. -/
def Obligations.DecodeSpecWords : Prop :=
  let c : Config := ⟨[(0, .zero), (1, .one), (2, .two)], [], [], 0, false⟩
  decode c [0x00, 0x61] = .ok (.f0 0x00, [0x61]) ∧
  decode c [0x01, 0x60, 0x05] = .ok (.f1Register 0x01 5, []) ∧
  decode c [0x01, 0x40, 0xF6, 0xFF, 0xFF, 0xFF, 0x99] = .ok (.f1RelativeAddress 0x01 0xFFFFFFF6, [0x99]) ∧
  decode c [0x02, 0x61, 0x01, 0x34, 0x12] = .ok (.f2RegisterConstant16 0x02 1 0x1234, []) ∧
  decode c [0x02, 0x23, 0x04, 0x03, 0x02, 0x01, 0xD0, 0xC0, 0xB0, 0xA0] =
    .ok (.f2Constant32AbsoluteAddress 0x02 0x01020304 0xA0B0C0D0, []) ∧
  decode c [0x02, 0x67, 0x05] = .error ⟨.unresolvedLabel, .p2⟩ ∧
  decode c [0x01, 0x27, 0x05] = .error ⟨.absentModeNonzero, .p2⟩

/-- R144 and R150 for F0: the result of each, and that nothing else changes. Model's choices: what exec of a row is (log 3), and that it reports the row also where P_PCOUNT of the opcode byte is not the row's count, where R144 refuses and no step runs it (log 18). -/
def Obligations.DecodesF0 : Prop :=
  ∀ o : BitVec 8,
    DecodesAs (.f0 o) (okOut o 0 0 0 0 0 1)

/-- R144 and R150 for F1.constant8, F1.constant16, F1.constant32, F1.absolute_address, F1.relative_address, F1.register_address, F1.register: the result of each, and that nothing else changes. Model's choices: what exec of a row is (log 3), and that it reports the row also where P_PCOUNT of the opcode byte is not the row's count, where R144 refuses and no step runs it (log 18). -/
def Obligations.DecodesF1 : Prop :=
  ∀ (o : BitVec 8) (v1 : BitVec 32),
    DecodesAs (.f1Constant8 o v1) (okOut o 1 0 (v1 &&& 0xFF) 0 0 3) ∧
    DecodesAs (.f1Constant16 o v1) (okOut o 1 1 (v1 &&& 0xFFFF) 0 0 4) ∧
    DecodesAs (.f1Constant32 o v1) (okOut o 1 2 v1 0 0 6) ∧
    DecodesAs (.f1AbsoluteAddress o v1) (okOut o 1 3 v1 0 0 6) ∧
    DecodesAs (.f1RelativeAddress o v1) (okOut o 1 4 v1 0 0 6) ∧
    DecodesAs (.f1RegisterAddress o v1) (okOut o 1 5 (v1 &&& 0xFF) 0 0 3) ∧
    DecodesAs (.f1Register o v1) (okOut o 1 6 (v1 &&& 0xFF) 0 0 3)

/-- R144 and R150 for F2.constant8.constant8, F2.constant8.constant16, F2.constant8.constant32, F2.constant8.absolute_address, F2.constant8.relative_address, F2.constant8.register_address, F2.constant8.register, F2.constant16.constant8, F2.constant16.constant16, F2.constant16.constant32, F2.constant16.absolute_address, F2.constant16.relative_address, F2.constant16.register_address, F2.constant16.register: the result of each, and that nothing else changes. Model's choices: what exec of a row is (log 3), and that it reports the row also where P_PCOUNT of the opcode byte is not the row's count, where R144 refuses and no step runs it (log 18). -/
def Obligations.DecodesF2NarrowConstant : Prop :=
  ∀ (o : BitVec 8) (v1 v2 : BitVec 32),
    DecodesAs (.f2Constant8Constant8 o v1 v2) (okOut o 2 0 (v1 &&& 0xFF) 0 (v2 &&& 0xFF) 4) ∧
    DecodesAs (.f2Constant8Constant16 o v1 v2) (okOut o 2 0 (v1 &&& 0xFF) 1 (v2 &&& 0xFFFF) 5) ∧
    DecodesAs (.f2Constant8Constant32 o v1 v2) (okOut o 2 0 (v1 &&& 0xFF) 2 v2 7) ∧
    DecodesAs (.f2Constant8AbsoluteAddress o v1 v2) (okOut o 2 0 (v1 &&& 0xFF) 3 v2 7) ∧
    DecodesAs (.f2Constant8RelativeAddress o v1 v2) (okOut o 2 0 (v1 &&& 0xFF) 4 v2 7) ∧
    DecodesAs (.f2Constant8RegisterAddress o v1 v2) (okOut o 2 0 (v1 &&& 0xFF) 5 (v2 &&& 0xFF) 4) ∧
    DecodesAs (.f2Constant8Register o v1 v2) (okOut o 2 0 (v1 &&& 0xFF) 6 (v2 &&& 0xFF) 4) ∧
    DecodesAs (.f2Constant16Constant8 o v1 v2) (okOut o 2 1 (v1 &&& 0xFFFF) 0 (v2 &&& 0xFF) 5) ∧
    DecodesAs (.f2Constant16Constant16 o v1 v2) (okOut o 2 1 (v1 &&& 0xFFFF) 1 (v2 &&& 0xFFFF) 6) ∧
    DecodesAs (.f2Constant16Constant32 o v1 v2) (okOut o 2 1 (v1 &&& 0xFFFF) 2 v2 8) ∧
    DecodesAs (.f2Constant16AbsoluteAddress o v1 v2) (okOut o 2 1 (v1 &&& 0xFFFF) 3 v2 8) ∧
    DecodesAs (.f2Constant16RelativeAddress o v1 v2) (okOut o 2 1 (v1 &&& 0xFFFF) 4 v2 8) ∧
    DecodesAs (.f2Constant16RegisterAddress o v1 v2) (okOut o 2 1 (v1 &&& 0xFFFF) 5 (v2 &&& 0xFF) 5) ∧
    DecodesAs (.f2Constant16Register o v1 v2) (okOut o 2 1 (v1 &&& 0xFFFF) 6 (v2 &&& 0xFF) 5)

/-- R144 and R150 for F2.constant32.constant8, F2.constant32.constant16, F2.constant32.constant32, F2.constant32.absolute_address, F2.constant32.relative_address, F2.constant32.register_address, F2.constant32.register, F2.absolute_address.constant8, F2.absolute_address.constant16, F2.absolute_address.constant32, F2.absolute_address.absolute_address, F2.absolute_address.relative_address, F2.absolute_address.register_address, F2.absolute_address.register, F2.relative_address.constant8, F2.relative_address.constant16, F2.relative_address.constant32, F2.relative_address.absolute_address, F2.relative_address.relative_address, F2.relative_address.register_address, F2.relative_address.register: the result of each, and that nothing else changes. Model's choices: what exec of a row is (log 3), and that it reports the row also where P_PCOUNT of the opcode byte is not the row's count, where R144 refuses and no step runs it (log 18). -/
def Obligations.DecodesF2FourByte : Prop :=
  ∀ (o : BitVec 8) (v1 v2 : BitVec 32),
    DecodesAs (.f2Constant32Constant8 o v1 v2) (okOut o 2 2 v1 0 (v2 &&& 0xFF) 7) ∧
    DecodesAs (.f2Constant32Constant16 o v1 v2) (okOut o 2 2 v1 1 (v2 &&& 0xFFFF) 8) ∧
    DecodesAs (.f2Constant32Constant32 o v1 v2) (okOut o 2 2 v1 2 v2 10) ∧
    DecodesAs (.f2Constant32AbsoluteAddress o v1 v2) (okOut o 2 2 v1 3 v2 10) ∧
    DecodesAs (.f2Constant32RelativeAddress o v1 v2) (okOut o 2 2 v1 4 v2 10) ∧
    DecodesAs (.f2Constant32RegisterAddress o v1 v2) (okOut o 2 2 v1 5 (v2 &&& 0xFF) 7) ∧
    DecodesAs (.f2Constant32Register o v1 v2) (okOut o 2 2 v1 6 (v2 &&& 0xFF) 7) ∧
    DecodesAs (.f2AbsoluteAddressConstant8 o v1 v2) (okOut o 2 3 v1 0 (v2 &&& 0xFF) 7) ∧
    DecodesAs (.f2AbsoluteAddressConstant16 o v1 v2) (okOut o 2 3 v1 1 (v2 &&& 0xFFFF) 8) ∧
    DecodesAs (.f2AbsoluteAddressConstant32 o v1 v2) (okOut o 2 3 v1 2 v2 10) ∧
    DecodesAs (.f2AbsoluteAddressAbsoluteAddress o v1 v2) (okOut o 2 3 v1 3 v2 10) ∧
    DecodesAs (.f2AbsoluteAddressRelativeAddress o v1 v2) (okOut o 2 3 v1 4 v2 10) ∧
    DecodesAs (.f2AbsoluteAddressRegisterAddress o v1 v2) (okOut o 2 3 v1 5 (v2 &&& 0xFF) 7) ∧
    DecodesAs (.f2AbsoluteAddressRegister o v1 v2) (okOut o 2 3 v1 6 (v2 &&& 0xFF) 7) ∧
    DecodesAs (.f2RelativeAddressConstant8 o v1 v2) (okOut o 2 4 v1 0 (v2 &&& 0xFF) 7) ∧
    DecodesAs (.f2RelativeAddressConstant16 o v1 v2) (okOut o 2 4 v1 1 (v2 &&& 0xFFFF) 8) ∧
    DecodesAs (.f2RelativeAddressConstant32 o v1 v2) (okOut o 2 4 v1 2 v2 10) ∧
    DecodesAs (.f2RelativeAddressAbsoluteAddress o v1 v2) (okOut o 2 4 v1 3 v2 10) ∧
    DecodesAs (.f2RelativeAddressRelativeAddress o v1 v2) (okOut o 2 4 v1 4 v2 10) ∧
    DecodesAs (.f2RelativeAddressRegisterAddress o v1 v2) (okOut o 2 4 v1 5 (v2 &&& 0xFF) 7) ∧
    DecodesAs (.f2RelativeAddressRegister o v1 v2) (okOut o 2 4 v1 6 (v2 &&& 0xFF) 7)

/-- R144 and R150 for F2.register_address.constant8, F2.register_address.constant16, F2.register_address.constant32, F2.register_address.absolute_address, F2.register_address.relative_address, F2.register_address.register_address, F2.register_address.register, F2.register.constant8, F2.register.constant16, F2.register.constant32, F2.register.absolute_address, F2.register.relative_address, F2.register.register_address, F2.register.register: the result of each, and that nothing else changes. Model's choices: what exec of a row is (log 3), and that it reports the row also where P_PCOUNT of the opcode byte is not the row's count, where R144 refuses and no step runs it (log 18). -/
def Obligations.DecodesF2Register : Prop :=
  ∀ (o : BitVec 8) (v1 v2 : BitVec 32),
    DecodesAs (.f2RegisterAddressConstant8 o v1 v2) (okOut o 2 5 (v1 &&& 0xFF) 0 (v2 &&& 0xFF) 4) ∧
    DecodesAs (.f2RegisterAddressConstant16 o v1 v2) (okOut o 2 5 (v1 &&& 0xFF) 1 (v2 &&& 0xFFFF) 5) ∧
    DecodesAs (.f2RegisterAddressConstant32 o v1 v2) (okOut o 2 5 (v1 &&& 0xFF) 2 v2 7) ∧
    DecodesAs (.f2RegisterAddressAbsoluteAddress o v1 v2) (okOut o 2 5 (v1 &&& 0xFF) 3 v2 7) ∧
    DecodesAs (.f2RegisterAddressRelativeAddress o v1 v2) (okOut o 2 5 (v1 &&& 0xFF) 4 v2 7) ∧
    DecodesAs (.f2RegisterAddressRegisterAddress o v1 v2) (okOut o 2 5 (v1 &&& 0xFF) 5 (v2 &&& 0xFF) 4) ∧
    DecodesAs (.f2RegisterAddressRegister o v1 v2) (okOut o 2 5 (v1 &&& 0xFF) 6 (v2 &&& 0xFF) 4) ∧
    DecodesAs (.f2RegisterConstant8 o v1 v2) (okOut o 2 6 (v1 &&& 0xFF) 0 (v2 &&& 0xFF) 4) ∧
    DecodesAs (.f2RegisterConstant16 o v1 v2) (okOut o 2 6 (v1 &&& 0xFF) 1 (v2 &&& 0xFFFF) 5) ∧
    DecodesAs (.f2RegisterConstant32 o v1 v2) (okOut o 2 6 (v1 &&& 0xFF) 2 v2 7) ∧
    DecodesAs (.f2RegisterAbsoluteAddress o v1 v2) (okOut o 2 6 (v1 &&& 0xFF) 3 v2 7) ∧
    DecodesAs (.f2RegisterRelativeAddress o v1 v2) (okOut o 2 6 (v1 &&& 0xFF) 4 v2 7) ∧
    DecodesAs (.f2RegisterRegisterAddress o v1 v2) (okOut o 2 6 (v1 &&& 0xFF) 5 (v2 &&& 0xFF) 4) ∧
    DecodesAs (.f2RegisterRegister o v1 v2) (okOut o 2 6 (v1 &&& 0xFF) 6 (v2 &&& 0xFF) 4)

/-- R143, R145 and R149 for F0: the bytes committed, and that nothing else changes. -/
def Obligations.EncodesF0 : Prop :=
  ∀ o : BitVec 8,
    EncodesAs (.f0 o) o .zero
      [o]

/-- R143, R145 and R149 for F1.constant8, F1.constant16, F1.constant32, F1.absolute_address, F1.relative_address, F1.register_address, F1.register: the bytes committed, and that nothing else changes. -/
def Obligations.EncodesF1 : Prop :=
  ∀ (o : BitVec 8) (v1 : BitVec 32),
    EncodesAs (.f1Constant8 o v1) o .one
      [o, 0x00, byteOf v1 0] ∧
    EncodesAs (.f1Constant16 o v1) o .one
      [o, 0x10, byteOf v1 0, byteOf v1 1] ∧
    EncodesAs (.f1Constant32 o v1) o .one
      [o, 0x20, byteOf v1 0, byteOf v1 1, byteOf v1 2, byteOf v1 3] ∧
    EncodesAs (.f1AbsoluteAddress o v1) o .one
      [o, 0x30, byteOf v1 0, byteOf v1 1, byteOf v1 2, byteOf v1 3] ∧
    EncodesAs (.f1RelativeAddress o v1) o .one
      [o, 0x40, byteOf v1 0, byteOf v1 1, byteOf v1 2, byteOf v1 3] ∧
    EncodesAs (.f1RegisterAddress o v1) o .one
      [o, 0x50, byteOf v1 0] ∧
    EncodesAs (.f1Register o v1) o .one
      [o, 0x60, byteOf v1 0]

/-- R143, R145 and R149 for F2.constant8.constant8, F2.constant8.constant16, F2.constant8.constant32, F2.constant8.absolute_address, F2.constant8.relative_address, F2.constant8.register_address, F2.constant8.register, F2.constant16.constant8, F2.constant16.constant16, F2.constant16.constant32, F2.constant16.absolute_address, F2.constant16.relative_address, F2.constant16.register_address, F2.constant16.register: the bytes committed, and that nothing else changes. -/
def Obligations.EncodesF2NarrowConstant : Prop :=
  ∀ (o : BitVec 8) (v1 v2 : BitVec 32),
    EncodesAs (.f2Constant8Constant8 o v1 v2) o .two
      [o, 0x00, byteOf v1 0, byteOf v2 0] ∧
    EncodesAs (.f2Constant8Constant16 o v1 v2) o .two
      [o, 0x01, byteOf v1 0, byteOf v2 0, byteOf v2 1] ∧
    EncodesAs (.f2Constant8Constant32 o v1 v2) o .two
      [o, 0x02, byteOf v1 0, byteOf v2 0, byteOf v2 1, byteOf v2 2, byteOf v2 3] ∧
    EncodesAs (.f2Constant8AbsoluteAddress o v1 v2) o .two
      [o, 0x03, byteOf v1 0, byteOf v2 0, byteOf v2 1, byteOf v2 2, byteOf v2 3] ∧
    EncodesAs (.f2Constant8RelativeAddress o v1 v2) o .two
      [o, 0x04, byteOf v1 0, byteOf v2 0, byteOf v2 1, byteOf v2 2, byteOf v2 3] ∧
    EncodesAs (.f2Constant8RegisterAddress o v1 v2) o .two
      [o, 0x05, byteOf v1 0, byteOf v2 0] ∧
    EncodesAs (.f2Constant8Register o v1 v2) o .two
      [o, 0x06, byteOf v1 0, byteOf v2 0] ∧
    EncodesAs (.f2Constant16Constant8 o v1 v2) o .two
      [o, 0x10, byteOf v1 0, byteOf v1 1, byteOf v2 0] ∧
    EncodesAs (.f2Constant16Constant16 o v1 v2) o .two
      [o, 0x11, byteOf v1 0, byteOf v1 1, byteOf v2 0, byteOf v2 1] ∧
    EncodesAs (.f2Constant16Constant32 o v1 v2) o .two
      [o, 0x12, byteOf v1 0, byteOf v1 1, byteOf v2 0, byteOf v2 1, byteOf v2 2, byteOf v2 3] ∧
    EncodesAs (.f2Constant16AbsoluteAddress o v1 v2) o .two
      [o, 0x13, byteOf v1 0, byteOf v1 1, byteOf v2 0, byteOf v2 1, byteOf v2 2, byteOf v2 3] ∧
    EncodesAs (.f2Constant16RelativeAddress o v1 v2) o .two
      [o, 0x14, byteOf v1 0, byteOf v1 1, byteOf v2 0, byteOf v2 1, byteOf v2 2, byteOf v2 3] ∧
    EncodesAs (.f2Constant16RegisterAddress o v1 v2) o .two
      [o, 0x15, byteOf v1 0, byteOf v1 1, byteOf v2 0] ∧
    EncodesAs (.f2Constant16Register o v1 v2) o .two
      [o, 0x16, byteOf v1 0, byteOf v1 1, byteOf v2 0]

/-- R143, R145 and R149 for F2.constant32.constant8, F2.constant32.constant16, F2.constant32.constant32, F2.constant32.absolute_address, F2.constant32.relative_address, F2.constant32.register_address, F2.constant32.register, F2.absolute_address.constant8, F2.absolute_address.constant16, F2.absolute_address.constant32, F2.absolute_address.absolute_address, F2.absolute_address.relative_address, F2.absolute_address.register_address, F2.absolute_address.register, F2.relative_address.constant8, F2.relative_address.constant16, F2.relative_address.constant32, F2.relative_address.absolute_address, F2.relative_address.relative_address, F2.relative_address.register_address, F2.relative_address.register: the bytes committed, and that nothing else changes. -/
def Obligations.EncodesF2FourByte : Prop :=
  ∀ (o : BitVec 8) (v1 v2 : BitVec 32),
    EncodesAs (.f2Constant32Constant8 o v1 v2) o .two
      [o, 0x20, byteOf v1 0, byteOf v1 1, byteOf v1 2, byteOf v1 3, byteOf v2 0] ∧
    EncodesAs (.f2Constant32Constant16 o v1 v2) o .two
      [o, 0x21, byteOf v1 0, byteOf v1 1, byteOf v1 2, byteOf v1 3, byteOf v2 0, byteOf v2 1] ∧
    EncodesAs (.f2Constant32Constant32 o v1 v2) o .two
      [o, 0x22, byteOf v1 0, byteOf v1 1, byteOf v1 2, byteOf v1 3, byteOf v2 0, byteOf v2 1, byteOf v2 2, byteOf v2 3] ∧
    EncodesAs (.f2Constant32AbsoluteAddress o v1 v2) o .two
      [o, 0x23, byteOf v1 0, byteOf v1 1, byteOf v1 2, byteOf v1 3, byteOf v2 0, byteOf v2 1, byteOf v2 2, byteOf v2 3] ∧
    EncodesAs (.f2Constant32RelativeAddress o v1 v2) o .two
      [o, 0x24, byteOf v1 0, byteOf v1 1, byteOf v1 2, byteOf v1 3, byteOf v2 0, byteOf v2 1, byteOf v2 2, byteOf v2 3] ∧
    EncodesAs (.f2Constant32RegisterAddress o v1 v2) o .two
      [o, 0x25, byteOf v1 0, byteOf v1 1, byteOf v1 2, byteOf v1 3, byteOf v2 0] ∧
    EncodesAs (.f2Constant32Register o v1 v2) o .two
      [o, 0x26, byteOf v1 0, byteOf v1 1, byteOf v1 2, byteOf v1 3, byteOf v2 0] ∧
    EncodesAs (.f2AbsoluteAddressConstant8 o v1 v2) o .two
      [o, 0x30, byteOf v1 0, byteOf v1 1, byteOf v1 2, byteOf v1 3, byteOf v2 0] ∧
    EncodesAs (.f2AbsoluteAddressConstant16 o v1 v2) o .two
      [o, 0x31, byteOf v1 0, byteOf v1 1, byteOf v1 2, byteOf v1 3, byteOf v2 0, byteOf v2 1] ∧
    EncodesAs (.f2AbsoluteAddressConstant32 o v1 v2) o .two
      [o, 0x32, byteOf v1 0, byteOf v1 1, byteOf v1 2, byteOf v1 3, byteOf v2 0, byteOf v2 1, byteOf v2 2, byteOf v2 3] ∧
    EncodesAs (.f2AbsoluteAddressAbsoluteAddress o v1 v2) o .two
      [o, 0x33, byteOf v1 0, byteOf v1 1, byteOf v1 2, byteOf v1 3, byteOf v2 0, byteOf v2 1, byteOf v2 2, byteOf v2 3] ∧
    EncodesAs (.f2AbsoluteAddressRelativeAddress o v1 v2) o .two
      [o, 0x34, byteOf v1 0, byteOf v1 1, byteOf v1 2, byteOf v1 3, byteOf v2 0, byteOf v2 1, byteOf v2 2, byteOf v2 3] ∧
    EncodesAs (.f2AbsoluteAddressRegisterAddress o v1 v2) o .two
      [o, 0x35, byteOf v1 0, byteOf v1 1, byteOf v1 2, byteOf v1 3, byteOf v2 0] ∧
    EncodesAs (.f2AbsoluteAddressRegister o v1 v2) o .two
      [o, 0x36, byteOf v1 0, byteOf v1 1, byteOf v1 2, byteOf v1 3, byteOf v2 0] ∧
    EncodesAs (.f2RelativeAddressConstant8 o v1 v2) o .two
      [o, 0x40, byteOf v1 0, byteOf v1 1, byteOf v1 2, byteOf v1 3, byteOf v2 0] ∧
    EncodesAs (.f2RelativeAddressConstant16 o v1 v2) o .two
      [o, 0x41, byteOf v1 0, byteOf v1 1, byteOf v1 2, byteOf v1 3, byteOf v2 0, byteOf v2 1] ∧
    EncodesAs (.f2RelativeAddressConstant32 o v1 v2) o .two
      [o, 0x42, byteOf v1 0, byteOf v1 1, byteOf v1 2, byteOf v1 3, byteOf v2 0, byteOf v2 1, byteOf v2 2, byteOf v2 3] ∧
    EncodesAs (.f2RelativeAddressAbsoluteAddress o v1 v2) o .two
      [o, 0x43, byteOf v1 0, byteOf v1 1, byteOf v1 2, byteOf v1 3, byteOf v2 0, byteOf v2 1, byteOf v2 2, byteOf v2 3] ∧
    EncodesAs (.f2RelativeAddressRelativeAddress o v1 v2) o .two
      [o, 0x44, byteOf v1 0, byteOf v1 1, byteOf v1 2, byteOf v1 3, byteOf v2 0, byteOf v2 1, byteOf v2 2, byteOf v2 3] ∧
    EncodesAs (.f2RelativeAddressRegisterAddress o v1 v2) o .two
      [o, 0x45, byteOf v1 0, byteOf v1 1, byteOf v1 2, byteOf v1 3, byteOf v2 0] ∧
    EncodesAs (.f2RelativeAddressRegister o v1 v2) o .two
      [o, 0x46, byteOf v1 0, byteOf v1 1, byteOf v1 2, byteOf v1 3, byteOf v2 0]

/-- R143, R145 and R149 for F2.register_address.constant8, F2.register_address.constant16, F2.register_address.constant32, F2.register_address.absolute_address, F2.register_address.relative_address, F2.register_address.register_address, F2.register_address.register, F2.register.constant8, F2.register.constant16, F2.register.constant32, F2.register.absolute_address, F2.register.relative_address, F2.register.register_address, F2.register.register: the bytes committed, and that nothing else changes. -/
def Obligations.EncodesF2Register : Prop :=
  ∀ (o : BitVec 8) (v1 v2 : BitVec 32),
    EncodesAs (.f2RegisterAddressConstant8 o v1 v2) o .two
      [o, 0x50, byteOf v1 0, byteOf v2 0] ∧
    EncodesAs (.f2RegisterAddressConstant16 o v1 v2) o .two
      [o, 0x51, byteOf v1 0, byteOf v2 0, byteOf v2 1] ∧
    EncodesAs (.f2RegisterAddressConstant32 o v1 v2) o .two
      [o, 0x52, byteOf v1 0, byteOf v2 0, byteOf v2 1, byteOf v2 2, byteOf v2 3] ∧
    EncodesAs (.f2RegisterAddressAbsoluteAddress o v1 v2) o .two
      [o, 0x53, byteOf v1 0, byteOf v2 0, byteOf v2 1, byteOf v2 2, byteOf v2 3] ∧
    EncodesAs (.f2RegisterAddressRelativeAddress o v1 v2) o .two
      [o, 0x54, byteOf v1 0, byteOf v2 0, byteOf v2 1, byteOf v2 2, byteOf v2 3] ∧
    EncodesAs (.f2RegisterAddressRegisterAddress o v1 v2) o .two
      [o, 0x55, byteOf v1 0, byteOf v2 0] ∧
    EncodesAs (.f2RegisterAddressRegister o v1 v2) o .two
      [o, 0x56, byteOf v1 0, byteOf v2 0] ∧
    EncodesAs (.f2RegisterConstant8 o v1 v2) o .two
      [o, 0x60, byteOf v1 0, byteOf v2 0] ∧
    EncodesAs (.f2RegisterConstant16 o v1 v2) o .two
      [o, 0x61, byteOf v1 0, byteOf v2 0, byteOf v2 1] ∧
    EncodesAs (.f2RegisterConstant32 o v1 v2) o .two
      [o, 0x62, byteOf v1 0, byteOf v2 0, byteOf v2 1, byteOf v2 2, byteOf v2 3] ∧
    EncodesAs (.f2RegisterAbsoluteAddress o v1 v2) o .two
      [o, 0x63, byteOf v1 0, byteOf v2 0, byteOf v2 1, byteOf v2 2, byteOf v2 3] ∧
    EncodesAs (.f2RegisterRelativeAddress o v1 v2) o .two
      [o, 0x64, byteOf v1 0, byteOf v2 0, byteOf v2 1, byteOf v2 2, byteOf v2 3] ∧
    EncodesAs (.f2RegisterRegisterAddress o v1 v2) o .two
      [o, 0x65, byteOf v1 0, byteOf v2 0] ∧
    EncodesAs (.f2RegisterRegister o v1 v2) o .two
      [o, 0x66, byteOf v1 0, byteOf v2 0]

/-- R149 with R143: an instruction that does not fit the region stops EncodeSeq with CAPACITY and writes nothing. -/
def Obligations.EncodeStopsWithoutRoom : Prop :=
  ∀ (i : Instr) (s : Machine.State) (p : List Instruction) (e c j : Nat), s.phase = .encoding p e c j →
    i.countOk s.config = true → e < c + i.view.format.length →
    exec i s = .next { s with phase := .idle, replies := s.replies ++ [.encodeFailed j .capacity .whole c] }

/-- R253, R46: a region that promises room the buffer does not have makes the commit one with no step. -/
def Obligations.EncodePastBufferIsRefused : Prop :=
  ∀ (i : Instr) (s : Machine.State) (p : List Instruction) (e c j : Nat), s.phase = .encoding p e c j →
    i.countOk s.config = true → c + i.view.format.length ≤ e → s.bufSize < c + i.view.format.length →
    exec i s = .refused .commitOutsideBuffer

/-- R253: with an honest cap no enabled byte lies past the buffer, and a commit outside it has no step. -/
def Obligations.HonestCapStaysInBuffer : Prop :=
  (∀ (c : Config) (x : Instruction) (cap : BitVec 4) (d size : Nat), d + cap.toNat ≤ size →
    inBuffer size (enabledWrites d (ienc c x cap)) = true) ∧
  (∀ (s : Machine.State) (d : Nat) (r : IencOut) (k : Fin 10), r.we[k] = true → s.bufSize ≤ d + k.val →
    s.commit d r = none)

/-- R150, R53: in a DecodeSeq a step decodes the bytes at the cursor and runs exec of that instruction, after other callers' bytes have landed. A window past the buffer shows free values and uses up their counter, the model's choice (log 7). -/
def Obligations.StepRunsDecodedInstruction : Prop :=
  ∀ (s : Machine.State) (c e : Nat) (l : List Entry) (rest : List Byte) (i : Instr),
    s.phase = .decoding c e l → c < e →
    decode s.config (s.land.window c (min 10 (e - c))) = .ok (i, rest) →
    step s = exec i (s.land.presented c (min 10 (e - c))) ∧
    (c + min 10 (e - c) ≤ s.bufSize → step s = exec i s.land ∧ (s.inflight = [] → step s = exec i s))

/-- R150: each round of DecodeSeq as its pseudocode has it, in terms of IDEC. The model's choices: past the buffer a window shows free values (log 7), and the stop is a step of its own (log 15). -/
def Obligations.DecodeSeqFollowsIdec : Prop :=
  ∀ (s : Machine.State) (c e : Nat) (l : List Entry), s.phase = .decoding c e l →
    (e ≤ c → step s = .next { s.land with phase := .idle, replies := s.replies ++ [.decodeDone l] }) ∧
    (c < e → c + min 10 (e - c) ≤ s.bufSize →
      ∀ win : Vector Byte 10, Shows s.land.mem c (min 10 (e - c)) win →
        let r := idec s.config win (BitVec.ofNat 4 (min 10 (e - c)))
        (r.status = .ok →
          step s = .next { s.land with phase := .decoding (c + r.len.toNat) e (l ++ [⟨c, r⟩]) }) ∧
        (r.status ≠ .ok →
          step s = .next
            { s.land with phase := .idle, replies := s.replies ++ [.decodeFailed c r.status r.slot l] })) ∧
    (c < e → ∃ (win : Vector Byte 10) (n : Nat), Presents s.land c (min 10 (e - c)) win ∧
      let r := idec s.config win (BitVec.ofNat 4 (min 10 (e - c)))
      (r.status = .ok →
        step s = .next { s.land with draws := n, phase := .decoding (c + r.len.toNat) e (l ++ [⟨c, r⟩]) }) ∧
      (r.status ≠ .ok →
        step s = .next
          { s.land with draws := n, phase := .idle, replies := s.replies ++ [.decodeFailed c r.status r.slot l] }))

/-- R149: EncodeSeq as its pseudocode has it, in terms of IENC and the commit, for values that spell an instruction and values that do not. A commit outside the buffer has no step by R46 and R253. The model's choices: the start from the list of calls (log 4), and the stop as a step of its own (log 15). -/
def Obligations.EncodeSeqFollowsIenc : Prop :=
  (∀ (s : Machine.State) (xs : List Instruction) (base size : Nat) (ks : List Call), s.phase = .idle →
    s.calls = .encodeSeq xs base size :: ks →
    step s = .next { s.land with phase := .encoding xs (base + size) base 1, calls := ks }) ∧
  (∀ (s : Machine.State) (e c j : Nat), s.phase = .encoding [] e c j →
    step s = .next { s.land with phase := .idle, replies := s.replies ++ [.encodeDone c] }) ∧
  (∀ (s : Machine.State) (x : Instruction) (xs : List Instruction) (e c j : Nat), s.phase = .encoding (x :: xs) e c j →
    let r := ienc s.config x (BitVec.ofNat 4 (min 10 (e - c)))
    (r.status ≠ .ok →
      step s = .next { s.land with phase := .idle, replies := s.replies ++ [.encodeFailed j r.status r.slot c] }) ∧
    (r.status = .ok →
      (∀ t, s.land.commit c r = some t →
        step s = .next { t with phase := .encoding xs e (c + r.len.toNat) (j + 1) }) ∧
      (s.land.commit c r = none → step s = .refused .commitOutsideBuffer)))

/-- R150, R260: a DecodeSeq ends, at the end exactly or at the first non-OK status, within one step per byte and one more. Past the buffer its windows show free values (log 7); the stop as a step of its own is the model's (log 15). -/
def Obligations.DecodeSeqEnds : Prop :=
  ∀ (s : Machine.State) (c e : Nat) (l : List Entry), s.phase = .decoding c e l → c ≤ e →
    ∃ (k : Nat) (t : Machine.State), k ≤ e - c + 1 ∧ Sys2Proof.core.run k s = .next t ∧ t.phase = .idle ∧
      ((∃ l', t.replies = s.replies ++ [.decodeDone (l ++ l')] ∧
          (l'.map fun n => n.result.len.toNat).sum = e - c) ∨
        (∃ o st sl l', t.replies = s.replies ++ [.decodeFailed o st sl (l ++ l')] ∧ st ≠ .ok ∧ c ≤ o ∧ o < e))

/-- R149, R260: an EncodeSeq in a region the buffer holds ends, done or at the first non-OK status, within one step per instruction and one more. The stop as a step of its own is the model's (log 15). -/
def Obligations.EncodeSeqEnds : Prop :=
  ∀ (s : Machine.State) (p : List Instruction) (e c j : Nat), s.phase = .encoding p e c j → e ≤ s.bufSize →
    ∃ (k : Nat) (t : Machine.State), k ≤ p.length + 1 ∧ Sys2Proof.core.run k s = .next t ∧ t.phase = .idle ∧
      ((∃ c', t.replies = s.replies ++ [.encodeDone c'] ∧ c ≤ c') ∨
        (∃ j' st sl c', t.replies = s.replies ++ [.encodeFailed j' st sl c'] ∧ st ≠ .ok ∧ j ≤ j' ∧
          j' < j + p.length ∧ c ≤ c'))

/-- R146, R149 and R150 together: instructions laid out by EncodeSeq and walked back by DecodeSeq are listed again, each at its start offset. That the two calls wait in a list is the model's (log 4). -/
def Obligations.EncodeSeqThenDecodeSeqListsThem : Prop :=
  ∀ (s : Machine.State) (is : List Instr) (base size : Nat), s.phase = .idle → s.inflight = [] → s.mem.wf →
    s.config.legacyModeGate = false → (∀ i ∈ is, i.WellFormed s.config = true) → totalLength is ≤ size →
    base + size ≤ s.bufSize →
    s.calls = [.encodeSeq (is.map Instr.toInstruction) base size, .decodeSeq base (base + totalLength is)] →
    ∃ (k : Nat) (t : Machine.State), Sys2Proof.core.run k s = .next t ∧ t.phase = .idle ∧ t.calls = [] ∧
      t.replies = s.replies ++ [.encodeDone (base + totalLength is), .decodeDone (listingOf base is)]

/-- Each single operation completes and only returns its outputs (10_state.md R27 to R32, R34). That calls wait in a list is the model's (log 4). -/
def Obligations.PureCallsAnswer : Prop :=
  ∀ (s : Machine.State) (ks : List Call), s.phase = .idle →
    (∀ m, s.calls = .width m :: ks → ∃ t, step s = .next t ∧ Answered s.land ks (.width (width s.config m)) t) ∧
    (∀ m v, s.calls = .penc m v :: ks → ∃ t, step s = .next t ∧ Answered s.land ks (.penc (penc m v)) t) ∧
    (∀ m b, s.calls = .pdec m b :: ks → ∃ t, step s = .next t ∧ Answered s.land ks (.pdec (pdec m b)) t) ∧
    (∀ o m1 m2 f, s.calls = .validate o m1 m2 f :: ks →
      ∃ t, step s = .next t ∧ Answered s.land ks (.validate (validate s.config o m1 m2 f)) t) ∧
    (∀ o m1 m2, s.calls = .len o m1 m2 :: ks → ∃ t, step s = .next t ∧ Answered s.land ks (.len (len s.config o m1 m2)) t) ∧
    (∀ x cap, s.calls = .ienc x cap :: ks → ∃ t, step s = .next t ∧ Answered s.land ks (.ienc (ienc s.config x cap)) t) ∧
    (∀ p, s.calls = .pfmt p :: ks → ∃ t, step s = .next t ∧ Answered s.land ks (.pfmt (pfmt s.config p)) t) ∧
    (∀ x, s.calls = .ifmt x :: ks → ∃ t, step s = .next t ∧ Answered s.land ks (.ifmt (ifmt s.config x)) t)

/-- R144, R53: an IDEC call, by value or of the image, returns IDEC of the bytes presented, read at the time of the call; with none presented it is TRUNCATED at any offset (D1). The model's choices: past the buffer the bytes presented are free values (log 7), and calls wait in a list (log 4). -/
def Obligations.IdecCallsAnswerIdec : Prop :=
  ∀ (s : Machine.State) (ks : List Call) (win : Vector Byte 10) (avail : BitVec 4), s.phase = .idle →
    (s.calls = .idec win avail :: ks →
      ∃ t, step s = .next t ∧ Answered s.land ks (.idec (idec s.config win avail)) t) ∧
    (∀ d, s.calls = .idecAt d avail :: ks → d + min 10 avail.toNat ≤ s.bufSize → Shows s.land.mem d (min 10 avail.toNat) win →
      ∃ t, step s = .next t ∧ Answered s.land ks (.idec (idec s.config win avail)) t) ∧
    (∀ d, s.calls = .idecAt d 0 :: ks →
      ∃ t, step s = .next t ∧ Answered s.land ks (.idec (idecError .truncated .whole)) t) ∧
    (∀ d, s.calls = .idecAt d avail :: ks → ∃ (w : Vector Byte 10) (n : Nat) (t : Machine.State),
      Presents s.land d (min 10 avail.toNat) w ∧ step s = .next t ∧
      Answered { s.land with draws := n } ks (.idec (idec s.config w avail)) t)

/-- R44, with the order of bytes irrelevant, and R45's idempotence. -/
def Obligations.CommitWritesEnabledBytes : Prop :=
  ∀ (s t : Machine.State) (d : Nat) (r : IencOut), s.mem.wf → s.commit d r = some t →
    (∀ k : Fin 10, r.we[k] = true → t.mem.read (d + k.val) = r.out[k]) ∧
    (∀ a, (∀ k : Fin 10, r.we[k] = true → a ≠ d + k.val) → t.mem.read a = s.mem.read a) ∧
    t = { s with mem := t.mem } ∧
    (∀ cells, cells.Perm (enabledWrites d r) → s.mem.writeAll cells = t.mem) ∧
    t.commit d r = some t

/-- R44, R46, R253: IENC with its commit completes with an honest cap, and has no step where it would write outside the buffer. That calls wait in a list is the model's (log 4). -/
def Obligations.CommitCallCompletes : Prop :=
  ∀ (s : Machine.State) (ks : List Call) (x : Instruction) (cap : BitVec 4) (d : Nat), s.phase = .idle →
    s.calls = .iencCommit x cap d :: ks →
    (d + cap.toNat ≤ s.bufSize →
      ∃ u, s.land.commit d (ienc s.config x cap) = some u ∧
        step s = .next { u with calls := ks, replies := s.replies ++ [.ienc (ienc s.config x cap)] }) ∧
    (∀ k : Fin 10, (ienc s.config x cap).we[k] = true → s.bufSize ≤ d + k.val →
      step s = .refused .commitOutsideBuffer)

/-- R50, first case: commits that enable disjoint bytes give the same buffer in either order. -/
def Obligations.DisjointCommitsCommute : Prop :=
  ∀ (s t u : Machine.State) (d d' : Nat) (r r' : IencOut), s.mem.wf →
    (∀ k k' : Fin 10, r.we[k] = true → r'.we[k'] = true → d + k.val ≠ d' + k'.val) →
    s.commit d r = some t → t.commit d' r' = some u →
    ∃ t', s.commit d' r' = some t' ∧ t'.commit d r = some u

/-- R50: whatever the free value is, a byte under another caller's commit holds the old value or one of the values written to it. How such bytes land is the model's (log 8). -/
def Obligations.RacingBytesAreWrittenValues : Prop :=
  ∀ s : Machine.State, s.mem.wf →
    (∀ a, s.land.mem.read a = s.mem.read a ∨ (a, s.land.mem.read a) ∈ s.inflight) ∧
    (∀ p ∈ s.inflight, p ∈ s.land.inflight ∨ ∃ b, (p.1, b) ∈ s.inflight ∧ s.land.mem.read p.1 = b) ∧
    s.land.inflight.Sublist s.inflight ∧
    s.land = { s with mem := s.land.mem, inflight := s.land.inflight, draws := s.land.draws }

/-- R50: another caller's commit begins: its enabled bytes are in flight and the buffer is not yet changed. That it stands in the list of calls is the model's (log 8). -/
def Obligations.OtherCommitGoesInFlight : Prop :=
  ∀ (s : Machine.State) (ks : List Call) (x : Instruction) (cap : BitVec 4) (d : Nat), s.phase = .idle →
    s.calls = .otherCommit x cap d :: ks → d + cap.toNat ≤ s.bufSize →
    step s = .next
      { s.land with calls := ks, inflight := s.land.inflight ++ enabledWrites d (ienc s.config x cap) }

/-- R191: hex is base 16 in lowercase digits, without leading zeros or prefix, 0 for zero. -/
def Obligations.HexSpellsTheNumber : Prop :=
  ∀ n : Nat, n < 2 ^ 32 →
    hexValue (hex n) = n ∧ (∀ ch ∈ hex n, digitValue ch < 16) ∧ hex n ≠ [] ∧ (n ≠ 0 → (hex n).head? ≠ some '0') ∧
    (n = 0 → hex n = ['0'])

/-- R192 to R198: the text of a parameter of every tag. -/
def Obligations.PfmtForms : Prop :=
  ∀ (c : Config) (v : BitVec 32),
    pfmt c ⟨0, v⟩ = ['0', 'x'] ++ hex v.toNat ++ ['u', '8'] ∧
    pfmt c ⟨1, v⟩ = ['0', 'x'] ++ hex v.toNat ++ ['u', '1', '6'] ∧
    pfmt c ⟨2, v⟩ = ['0', 'x'] ++ hex v.toNat ++ ['u', '3', '2'] ∧
    pfmt c ⟨3, v⟩ = ['#'] ++ hex v.toNat ∧
    (v.toNat < 2 ^ 31 → pfmt c ⟨4, v⟩ = ['$'] ++ hex v.toNat) ∧
    (2 ^ 31 ≤ v.toNat → pfmt c ⟨4, v⟩ = ['$', '-'] ++ hex (2 ^ 32 - v.toNat)) ∧
    (∀ name, c.regName.lookup v = some name → pfmt c ⟨5, v⟩ = ['@'] ++ name ∧ pfmt c ⟨6, v⟩ = name) ∧
    (c.regName.lookup v = none →
      pfmt c ⟨5, v⟩ = ['@', Char.ofNat 123, '0', 'x'] ++ hex v.toNat ++ [Char.ofNat 125] ∧
      pfmt c ⟨6, v⟩ = [Char.ofNat 123, '0', 'x'] ++ hex v.toNat ++ [Char.ofNat 125]) ∧
    (∀ t : BitVec 4, 7 ≤ t.toNat →
      pfmt c ⟨t, v⟩ = [Char.ofNat 123, '0', 'x'] ++ hex v.toNat ++ [Char.ofNat 125])

/-- R199 and R200: the text of an instruction for every declared count, named or not, and for an undefined opcode byte. -/
def Obligations.IfmtForms : Prop :=
  ∀ (c : Config) (x : Instruction),
    let shown := match c.mnemonic.lookup x.opcode with
      | some name => name
      | none => [Char.ofNat 123, '0', 'x'] ++ hex x.opcode.toNat ++ [Char.ofNat 125]
    (c.declared x.opcode = none →
      ifmt c x = [Char.ofNat 123, '0', 'x'] ++ hex x.opcode.toNat ++ [Char.ofNat 125, '\n']) ∧
    (c.declared x.opcode = some .zero → ifmt c x = shown ++ ['\n']) ∧
    (c.declared x.opcode = some .one → ifmt c x = shown ++ [' '] ++ pfmt c x.p1 ++ ['\n']) ∧
    (c.declared x.opcode = some .two → ifmt c x = shown ++ [' '] ++ pfmt c x.p1 ++ [' '] ++ pfmt c x.p2 ++ ['\n'])

/-- R221, R21: the codes on the status and slot ports. -/
def Obligations.StatusAndSlotCodes : Prop :=
  statusCode .ok = 0 ∧ statusCode .undefinedOpcode = 1 ∧ statusCode .unknownMode = 2 ∧
  statusCode .absentModeNonzero = 3 ∧ statusCode .unresolvedLabel = 4 ∧ statusCode .capacity = 5 ∧
  statusCode .truncated = 6 ∧ slotCode .whole = 0 ∧ slotCode .p1 = 1 ∧ slotCode .p2 = 2

/-- Every step keeps the buffer's content canonical and every byte listed or in flight inside the buffer (R44, R46). -/
def Obligations.StepKeepsInvariant : Prop :=
  ∀ s t : Machine.State, s.Inv → step s = .next t → t.Inv

/-- The reset state meets the invariant, and nothing in it promises room the buffer does not have. It rests on the model's choices for reset, where R35 only leaves the buffer untouched: nothing asked (log 4), size 0 (log 5), nothing listed (log 6), nothing in flight (log 8). -/
def Obligations.ResetHasInvariant : Prop :=
  State.reset.Inv ∧ State.reset.Honest

/-- R5: the label ordinal and the gate at the spec's defaults. That no opcode is defined and nothing is in progress is the model's choice (log 2, log 4). -/
def Obligations.ResetConfigurationDefaults : Prop :=
  State.reset.config.labelOrdinal = 7 ∧ State.reset.config.legacyModeGate = false ∧ State.reset.phase = .idle ∧
  (∀ o, State.reset.config.declared o = none)

/-- R25: no operation writes the configuration. The model's choices: the configuration is held in the state (log 1), and the buffer's size, the caller's, is fixed for the run (log 5). -/
def Obligations.ConfigurationNeverChanges : Prop :=
  ∀ s t : Machine.State, step s = .next t → t.config = s.config ∧ t.bufSize = s.bufSize

/-- R253, R260: when every operation commits only inside the buffer, every step answers a next state, and the duty stays met. The duty bounds commits only: that IDEC and DecodeSeq past the buffer's end complete is the model's choice (log 7), as is that calls wait in a list (log 4). -/
def Obligations.HonestStepsComplete : Prop :=
  ∀ s : Machine.State, s.Honest → s.Safe ∧ ∀ t, step s = .next t → t.Honest

/-- R260, R253: every operation ends by returning; only a commit that would write outside the buffer has no step. That a decode past the buffer goes on is the model's choice (log 7). -/
def Obligations.OnlyCommitsStop : Prop :=
  ∀ s : Machine.State, s.Safe ∨ (step s = .refused .commitOutsideBuffer ∧
    ((∃ x xs e c j, s.phase = .encoding (x :: xs) e c j ∧ s.land.commit c (ienc s.config x (BitVec.ofNat 4 (min 10 (e - c)))) = none) ∨
      (s.phase = .idle ∧ ∃ x cap d ks, (s.calls = .iencCommit x cap d :: ks ∨ s.calls = .otherCommit x cap d :: ks) ∧
        s.land.commit d (ienc s.config x cap) = none)))

/-- R24, R26, R224: outputs returned earlier influence no operation; an error is not sticky. -/
def Obligations.RepliesAreNeverRead : Prop :=
  ∀ (s : Machine.State) (rs : List Reply),
    match step s with
    | .next t => ∃ new, t.replies = s.replies ++ new ∧
        step { s with replies := rs } = .next { t with replies := rs ++ new }
    | .fault r => step { s with replies := rs } = .fault r
    | .refused r => step { s with replies := rs } = .refused r

/-- With nothing asked, a step only lets other callers' bytes land; the state stays as it is when none is in flight. The model's choice (log 15); R26: nothing is pending inside TXED. -/
def Obligations.IdleStepOnlyLands : Prop :=
  ∀ s : Machine.State, s.phase = .idle → s.calls = [] → step s = .next s.land ∧ (s.inflight = [] → step s = .next s)
end

