-- ==== Sys2Proof/Laws/State.lean ====
section
/-! SUPPORT. One lemma per field per update of the state, so that no proof unfolds a record update. -/

namespace Sys2Proof.Machine

/-! ### withMem -/

@[simp] theorem State.withMem_config (s : State) (m : Memory) : (s.withMem m).config = s.config := rfl
@[simp] theorem State.withMem_bufSize (s : State) (m : Memory) : (s.withMem m).bufSize = s.bufSize := rfl
@[simp] theorem State.withMem_mem (s : State) (m : Memory) : (s.withMem m).mem = m := rfl
@[simp] theorem State.withMem_phase (s : State) (m : Memory) : (s.withMem m).phase = s.phase := rfl
@[simp] theorem State.withMem_calls (s : State) (m : Memory) : (s.withMem m).calls = s.calls := rfl
@[simp] theorem State.withMem_replies (s : State) (m : Memory) : (s.withMem m).replies = s.replies := rfl
@[simp] theorem State.withMem_inflight (s : State) (m : Memory) : (s.withMem m).inflight = s.inflight := rfl
@[simp] theorem State.withMem_draws (s : State) (m : Memory) : (s.withMem m).draws = s.draws := rfl

/-! ### withPhase -/

@[simp] theorem State.withPhase_config (s : State) (p : Phase) : (s.withPhase p).config = s.config := rfl
@[simp] theorem State.withPhase_bufSize (s : State) (p : Phase) : (s.withPhase p).bufSize = s.bufSize := rfl
@[simp] theorem State.withPhase_mem (s : State) (p : Phase) : (s.withPhase p).mem = s.mem := rfl
@[simp] theorem State.withPhase_phase (s : State) (p : Phase) : (s.withPhase p).phase = p := rfl
@[simp] theorem State.withPhase_calls (s : State) (p : Phase) : (s.withPhase p).calls = s.calls := rfl
@[simp] theorem State.withPhase_replies (s : State) (p : Phase) : (s.withPhase p).replies = s.replies := rfl
@[simp] theorem State.withPhase_inflight (s : State) (p : Phase) : (s.withPhase p).inflight = s.inflight := rfl
@[simp] theorem State.withPhase_draws (s : State) (p : Phase) : (s.withPhase p).draws = s.draws := rfl

/-! ### withCalls -/

@[simp] theorem State.withCalls_config (s : State) (k : List Call) : (s.withCalls k).config = s.config := rfl
@[simp] theorem State.withCalls_bufSize (s : State) (k : List Call) : (s.withCalls k).bufSize = s.bufSize := rfl
@[simp] theorem State.withCalls_mem (s : State) (k : List Call) : (s.withCalls k).mem = s.mem := rfl
@[simp] theorem State.withCalls_phase (s : State) (k : List Call) : (s.withCalls k).phase = s.phase := rfl
@[simp] theorem State.withCalls_calls (s : State) (k : List Call) : (s.withCalls k).calls = k := rfl
@[simp] theorem State.withCalls_replies (s : State) (k : List Call) : (s.withCalls k).replies = s.replies := rfl
@[simp] theorem State.withCalls_inflight (s : State) (k : List Call) : (s.withCalls k).inflight = s.inflight := rfl
@[simp] theorem State.withCalls_draws (s : State) (k : List Call) : (s.withCalls k).draws = s.draws := rfl

/-! ### withInflight -/

@[simp] theorem State.withInflight_config (s : State) (l : List Host.Cell) (n : Nat) : (s.withInflight l n).config = s.config := rfl
@[simp] theorem State.withInflight_bufSize (s : State) (l : List Host.Cell) (n : Nat) : (s.withInflight l n).bufSize = s.bufSize := rfl
@[simp] theorem State.withInflight_mem (s : State) (l : List Host.Cell) (n : Nat) : (s.withInflight l n).mem = s.mem := rfl
@[simp] theorem State.withInflight_phase (s : State) (l : List Host.Cell) (n : Nat) : (s.withInflight l n).phase = s.phase := rfl
@[simp] theorem State.withInflight_calls (s : State) (l : List Host.Cell) (n : Nat) : (s.withInflight l n).calls = s.calls := rfl
@[simp] theorem State.withInflight_replies (s : State) (l : List Host.Cell) (n : Nat) : (s.withInflight l n).replies = s.replies := rfl
@[simp] theorem State.withInflight_inflight (s : State) (l : List Host.Cell) (n : Nat) : (s.withInflight l n).inflight = l := rfl
@[simp] theorem State.withInflight_draws (s : State) (l : List Host.Cell) (n : Nat) : (s.withInflight l n).draws = n := rfl

/-! ### reply -/

@[simp] theorem State.reply_config (s : State) (r : Reply) : (s.reply r).config = s.config := rfl
@[simp] theorem State.reply_bufSize (s : State) (r : Reply) : (s.reply r).bufSize = s.bufSize := rfl
@[simp] theorem State.reply_mem (s : State) (r : Reply) : (s.reply r).mem = s.mem := rfl
@[simp] theorem State.reply_phase (s : State) (r : Reply) : (s.reply r).phase = s.phase := rfl
@[simp] theorem State.reply_calls (s : State) (r : Reply) : (s.reply r).calls = s.calls := rfl
@[simp] theorem State.reply_replies (s : State) (r : Reply) : (s.reply r).replies = s.replies ++ [r] := rfl
@[simp] theorem State.reply_inflight (s : State) (r : Reply) : (s.reply r).inflight = s.inflight := rfl
@[simp] theorem State.reply_draws (s : State) (r : Reply) : (s.reply r).draws = s.draws := rfl

/-! ### finish -/

@[simp] theorem State.finish_config (s : State) (r : Reply) : (s.finish r).config = s.config := rfl
@[simp] theorem State.finish_bufSize (s : State) (r : Reply) : (s.finish r).bufSize = s.bufSize := rfl
@[simp] theorem State.finish_mem (s : State) (r : Reply) : (s.finish r).mem = s.mem := rfl
@[simp] theorem State.finish_phase (s : State) (r : Reply) : (s.finish r).phase = .idle := rfl
@[simp] theorem State.finish_calls (s : State) (r : Reply) : (s.finish r).calls = s.calls := rfl
@[simp] theorem State.finish_replies (s : State) (r : Reply) : (s.finish r).replies = s.replies ++ [r] := rfl
@[simp] theorem State.finish_inflight (s : State) (r : Reply) : (s.finish r).inflight = s.inflight := rfl
@[simp] theorem State.finish_draws (s : State) (r : Reply) : (s.finish r).draws = s.draws := rfl

/-! ### land: only the buffer, the bytes in flight and the draw counter change -/

@[simp] theorem State.land_config (s : State) : s.land.config = s.config := rfl
@[simp] theorem State.land_bufSize (s : State) : s.land.bufSize = s.bufSize := rfl
@[simp] theorem State.land_phase (s : State) : s.land.phase = s.phase := rfl
@[simp] theorem State.land_calls (s : State) : s.land.calls = s.calls := rfl
@[simp] theorem State.land_replies (s : State) : s.land.replies = s.replies := rfl

/-- With nothing in flight nothing lands. -/
theorem State.land_of_inflight_nil (s : State) (h : s.inflight = []) : s.land = s := by
  cases s
  simp only at h
  subst h
  rfl

/-- Putting back the content a state has changes nothing. -/
@[simp] theorem State.withMem_self (s : State) : s.withMem s.mem = s := rfl

/-! ### The reset state -/

@[simp] theorem State.reset_phase : State.reset.phase = .idle := rfl
@[simp] theorem State.reset_mem : State.reset.mem = [] := rfl
@[simp] theorem State.reset_calls : State.reset.calls = [] := rfl
@[simp] theorem State.reset_inflight : State.reset.inflight = [] := rfl

end Sys2Proof.Machine
end

