-- ==== Sys2Proof/Laws/Memory.lean ====
section
/-! SUPPORT. The buffer: reads after writes, and that every memory operation keeps the canonical form and the bounds. -/

namespace Sys2Proof.Machine

@[simp] theorem Memory.read_nil (a : Nat) : Memory.read [] a = Memory.blank := rfl

theorem Memory.read_cons (x : Nat) (y : Byte) (t : Memory) (a : Nat) :
    Memory.read ((x, y) :: t) a = if x = a then y else Memory.read t a := rfl

/-- An offset below every listed one reads as an unlisted offset does. -/
theorem Memory.read_of_lt (m : Memory) (a : Nat) (h : ∀ p ∈ m, a < p.1) : m.read a = Memory.blank := by
  induction m with
  | nil => rfl
  | cons p t ih =>
    have hp := h p (by simp)
    rw [Memory.read_cons, if_neg (by omega)]
    exact ih fun q hq => h q (by simp [hq])

/-- A canonical list is canonical without its first entry, which lies below the others. -/
theorem Memory.wf_cons {p : Host.Cell} {t : Memory} :
    Memory.wf (p :: t) ↔ p.2 ≠ Memory.blank ∧ (∀ q ∈ t, p.1 < q.1) ∧ Memory.wf t := by
  simp only [Memory.wf, List.pairwise_cons, List.mem_cons, forall_eq_or_imp]
  tauto

/-- What can be listed after a write: an entry listed before, or the byte written. -/
theorem Memory.mem_write {m : Memory} {a : Nat} {b : Byte} {p : Host.Cell} (h : p ∈ m.write a b) :
    p ∈ m ∨ (p = (a, b) ∧ b ≠ Memory.blank) := by
  induction m with
  | nil =>
    by_cases hb : b = Memory.blank <;> simp_all [Memory.write]
  | cons q t ih =>
    obtain ⟨x, y⟩ := q
    simp only [Memory.write] at h
    split_ifs at h with h1 h2 h3 h4
    · exact .inl h
    · rcases List.mem_cons.1 h with rfl | h
      · exact .inr ⟨rfl, h2⟩
      · exact .inl h
    · exact .inl (List.mem_cons_of_mem _ h)
    · rcases List.mem_cons.1 h with rfl | h
      · exact .inr ⟨rfl, h4⟩
      · exact .inl (List.mem_cons_of_mem _ h)
    · rcases List.mem_cons.1 h with rfl | h
      · exact .inl (by simp)
      · exact (ih h).imp (List.mem_cons_of_mem _) id

/-- A write keeps the canonical form. -/
theorem Memory.write_wf {m : Memory} (hm : m.wf) (a : Nat) (b : Byte) : (m.write a b).wf := by
  induction m with
  | nil => by_cases hb : b = Memory.blank <;> simp [Memory.write, Memory.wf, hb]
  | cons q t ih =>
    obtain ⟨x, y⟩ := q
    obtain ⟨hy, hlt, ht⟩ := Memory.wf_cons.1 hm
    simp only [Memory.write]
    split_ifs with h1 h2 h3 h4
    · exact hm
    · refine Memory.wf_cons.2 ⟨h2, fun r hr => ?_, hm⟩
      rcases List.mem_cons.1 hr with rfl | hr
      · exact h1
      · exact lt_trans h1 (hlt r hr)
    · exact ht
    · exact Memory.wf_cons.2 ⟨h4, fun r hr => h3 ▸ hlt r hr, ht⟩
    · refine Memory.wf_cons.2 ⟨hy, fun r hr => ?_, ih ht⟩
      rcases Memory.mem_write hr with hr | ⟨rfl, -⟩
      · exact hlt r hr
      · show x < a
        omega

/-- A byte written reads back, in a canonical buffer. -/
theorem Memory.read_write_same {m : Memory} (hm : m.wf) (a : Nat) (b : Byte) : (m.write a b).read a = b := by
  induction m with
  | nil => by_cases hb : b = Memory.blank <;> simp [Memory.write, Memory.read, hb]
  | cons q t ih =>
    obtain ⟨x, y⟩ := q
    obtain ⟨-, hlt, ht⟩ := Memory.wf_cons.1 hm
    simp only [Memory.write]
    split_ifs with h1 h2 h3 h4
    · rw [h2]
      refine Memory.read_of_lt _ _ fun r hr => ?_
      rcases List.mem_cons.1 hr with rfl | hr
      · exact h1
      · exact lt_trans h1 (hlt r hr)
    · simp [Memory.read]
    · rw [h4]
      exact Memory.read_of_lt _ _ fun r hr => h3 ▸ hlt r hr
    · simp [Memory.read]
    · rw [Memory.read_cons, if_neg (by omega)]
      exact ih ht

/-- A write leaves every other byte alone. -/
theorem Memory.read_write_other (m : Memory) {a x : Nat} (b : Byte) (h : x ≠ a) : (m.write a b).read x = m.read x := by
  induction m with
  | nil => by_cases hb : b = Memory.blank <;> simp [Memory.write, Memory.read, hb, h.symm]
  | cons q t ih =>
    obtain ⟨k, y⟩ := q
    simp only [Memory.write]
    split_ifs with h1 h2 h3 h4
    · rfl
    · rw [Memory.read_cons, if_neg (Ne.symm h)]
    · rw [Memory.read_cons, if_neg (by omega)]
    · rw [Memory.read_cons, if_neg (Ne.symm h), Memory.read_cons, if_neg (by omega)]
    · rw [Memory.read_cons, Memory.read_cons, ih]

/-- What any byte reads as after a write to a canonical buffer. -/
theorem Memory.read_write {m : Memory} (hm : m.wf) (a x : Nat) (b : Byte) :
    (m.write a b).read x = if x = a then b else m.read x := by
  split_ifs with h
  · rw [h, Memory.read_write_same hm]
  · exact Memory.read_write_other m b h

@[simp] theorem Memory.writeAll_nil (m : Memory) : m.writeAll [] = m := rfl

@[simp] theorem Memory.writeAll_cons (m : Memory) (c : Host.Cell) (t : List Host.Cell) :
    m.writeAll (c :: t) = (m.write c.1 c.2).writeAll t := rfl

theorem Memory.writeAll_wf {m : Memory} (hm : m.wf) (cells : List Host.Cell) : (m.writeAll cells).wf := by
  induction cells generalizing m with
  | nil => exact hm
  | cons c t ih => exact ih (Memory.write_wf hm c.1 c.2)

theorem Memory.mem_writeAll {m : Memory} {cells : List Host.Cell} {p : Host.Cell} (h : p ∈ m.writeAll cells) :
    p ∈ m ∨ p ∈ cells := by
  induction cells generalizing m with
  | nil => exact .inl h
  | cons c t ih =>
    rcases ih h with h | h
    · rcases Memory.mem_write h with h | ⟨rfl, -⟩
      · exact .inl h
      · exact .inr (by simp)
    · exact .inr (List.mem_cons_of_mem _ h)

/-- Writes leave alone every byte they do not name. -/
theorem Memory.read_writeAll_other (m : Memory) (cells : List Host.Cell) (x : Nat) (h : ∀ c ∈ cells, c.1 ≠ x) :
    (m.writeAll cells).read x = m.read x := by
  induction cells generalizing m with
  | nil => rfl
  | cons c t ih =>
    rw [Memory.writeAll_cons, ih _ fun d hd => h d (by simp [hd])]
    exact Memory.read_write_other m c.2 (Ne.symm (h c (by simp)))

/-- A byte written once, among writes to different offsets, reads back. -/
theorem Memory.read_writeAll_of_mem {m : Memory} (hm : m.wf) {cells : List Host.Cell}
    (hn : (cells.map Prod.fst).Nodup) {p : Host.Cell} (hp : p ∈ cells) : (m.writeAll cells).read p.1 = p.2 := by
  induction cells generalizing m with
  | nil => cases hp
  | cons c t ih =>
    simp only [List.map_cons, List.nodup_cons] at hn
    rw [Memory.writeAll_cons]
    rcases List.mem_cons.1 hp with rfl | hp
    · rw [Memory.read_writeAll_other _ _ _ fun d hd heq => hn.1 (List.mem_map.2 ⟨d, hd, heq⟩)]
      exact Memory.read_write_same hm _ _
    · exact ih (Memory.write_wf hm c.1 c.2) hn.2 hp

/-- Canonical buffers that read alike are equal. -/
theorem Memory.ext_of_read {m n : Memory} (hm : m.wf) (hn : n.wf) (h : ∀ a, m.read a = n.read a) : m = n := by
  induction m generalizing n with
  | nil =>
    cases n with
    | nil => rfl
    | cons q t =>
      have := h q.1
      rw [Memory.read_nil, show (q :: t) = ((q.1, q.2) :: t) from rfl, Memory.read_cons, if_pos rfl] at this
      exact absurd this.symm (Memory.wf_cons.1 hn).1
  | cons p t ih =>
    obtain ⟨x, y⟩ := p
    obtain ⟨hy, hlt, ht⟩ := Memory.wf_cons.1 hm
    cases n with
    | nil =>
      have := h x
      rw [Memory.read_cons, if_pos rfl, Memory.read_nil] at this
      exact absurd this hy
    | cons q u =>
      obtain ⟨z, w⟩ := q
      obtain ⟨hw, hlu, hu⟩ := Memory.wf_cons.1 hn
      have hx := h x
      have hz := h z
      rw [Memory.read_cons, if_pos rfl, Memory.read_cons] at hx
      rw [Memory.read_cons, Memory.read_cons, if_pos rfl] at hz
      have hxz : x = z := by
        rcases lt_trichotomy x z with hl | he | hl
        · rw [if_neg (by omega), Memory.read_of_lt u x fun q hq => lt_trans hl (hlu q hq)] at hx
          exact absurd hx hy
        · exact he
        · rw [if_neg (by omega), Memory.read_of_lt t z fun q hq => lt_trans hl (hlt q hq)] at hz
          exact absurd hz.symm hw
      subst hxz
      rw [if_pos rfl] at hx
      subst hx
      refine congrArg _ (ih ht hu fun a => ?_)
      by_cases ha : x = a
      · subst ha
        rw [Memory.read_of_lt t x hlt, Memory.read_of_lt u x hlu]
      · have := h a
        rwa [Memory.read_cons, if_neg ha, Memory.read_cons, if_neg ha] at this

/-! ### Landing -/

theorem landing_cons (n : Nat) (c : Host.Cell) (t : List Host.Cell) (m : Memory) :
    landing n (c :: t) m =
      if Config.commitLands n then landing (n + 1) t (m.write c.1 c.2)
      else ((landing (n + 1) t m).1, c :: (landing (n + 1) t m).2.1, (landing (n + 1) t m).2.2) := rfl

/-- Landing keeps the canonical form. -/
theorem landing_wf (cells : List Host.Cell) (n : Nat) {m : Memory} (hm : m.wf) : (landing n cells m).1.wf := by
  induction cells generalizing n m with
  | nil => exact hm
  | cons c t ih =>
    rw [landing_cons]
    split
    · exact ih _ (Memory.write_wf hm c.1 c.2)
    · exact ih _ hm

/-- What can be listed after landing: an entry listed before, or a byte that was in flight. -/
theorem mem_landing (cells : List Host.Cell) (n : Nat) (m : Memory) {p : Host.Cell} (h : p ∈ (landing n cells m).1) :
    p ∈ m ∨ p ∈ cells := by
  induction cells generalizing n m with
  | nil => exact .inl h
  | cons c t ih =>
    rw [landing_cons] at h
    split at h
    · rcases ih _ _ h with h | h
      · rcases Memory.mem_write h with h | ⟨rfl, -⟩
        · exact .inl h
        · exact .inr (by simp)
      · exact .inr (List.mem_cons_of_mem _ h)
    · exact (ih _ _ h).imp id (List.mem_cons_of_mem _)

/-- What stays in flight was in flight, in the same order. -/
theorem landing_sublist (cells : List Host.Cell) (n : Nat) (m : Memory) : (landing n cells m).2.1.Sublist cells := by
  induction cells generalizing n m with
  | nil => exact .slnil
  | cons c t ih =>
    rw [landing_cons]
    split
    · exact (ih _ _).cons c
    · exact (ih _ _).cons_cons c

end Sys2Proof.Machine
end

