-- ==== Sys2Proof/Laws/Ops.lean ====
section
/-! SUPPORT. For each shared operation, once, everything it can do; later proofs cite these instead of unfolding it. -/

namespace Sys2Proof.Machine

/-! ### Dispatch -/

/-- Every meaning is `handle` of the instruction's parts. -/
theorem exec_eq_handle (i : Instr) (s : State) :
    exec i s = handle i.view.format i.view.opcode i.view.v1 i.view.v2 s := by
  cases i <;> rfl

/-- An instruction is made of its parts. -/
theorem ofFormat_view (i : Instr) : Instr.ofFormat i.view.format i.view.opcode i.view.v1 i.view.v2 = i := by
  cases i <;> rfl

@[simp] theorem view_ofF1 (m : ConcreteMode) (o : BitVec 8) (v1 : BitVec 32) :
    (Instr.ofF1 m o v1).view = ⟨.f1 m, o, v1, 0⟩ := by
  cases m <;> rfl

@[simp] theorem view_ofF2 (m1 m2 : ConcreteMode) (o : BitVec 8) (v1 v2 : BitVec 32) :
    (Instr.ofF2 m1 m2 o v1 v2).view = ⟨.f2 m1 m2, o, v1, v2⟩ := by
  cases m1 <;> cases m2 <;> rfl

/-- An encoding is as long as its format variant says. -/
theorem encode_length (i : Instr) : (encode i).length = i.view.format.length := by
  cases i <;> rfl

/-! ### Modes and fields -/

@[simp] theorem ofTag_tag (m : ConcreteMode) : ConcreteMode.ofTag m.tag = some m := by
  cases m <;> rfl

/-- The concrete mode of a tag has that tag. -/
theorem tag_of_ofTag {t : BitVec 4} {m : ConcreteMode} (h : ConcreteMode.ofTag t = some m) : m.tag = t := by
  revert t m
  decide

@[simp] theorem classify_tag (c : Config) (m : ConcreteMode) : classify c m.tag = .concrete m := by
  simp [classify]

@[simp] theorem leBytes_length (n : Nat) (v : BitVec 32) : (leBytes n v).length = n := by
  simp [leBytes]

theorem width_pos (m : ConcreteMode) : 1 ≤ m.width := by
  cases m <;> decide

theorem width_le (m : ConcreteMode) : m.width ≤ 4 := by
  cases m <;> decide

theorem format_length_pos (f : Format) : 1 ≤ f.length := by
  cases f <;> simp only [Format.length] <;> omega

theorem format_length_le (f : Format) : f.length ≤ 10 := by
  cases f with
  | f0 => decide
  | f1 m => have := width_le m; simp only [Format.length]; omega
  | f2 m1 m2 => have := width_le m1; have := width_le m2; simp only [Format.length]; omega

/-! ### Commit and window -/

/-- A byte is written exactly where the write enable of its index is set. -/
theorem mem_enabledWrites {d : Nat} {r : IencOut} {p : Host.Cell} :
    p ∈ enabledWrites d r ↔ ∃ i : Fin 10, r.we[i] = true ∧ p = (d + i.val, r.out[i]) := by
  simp only [enabledWrites, List.mem_filterMap, List.mem_finRange, true_and]
  constructor
  · rintro ⟨i, h⟩
    by_cases hw : r.we[i] = true
    · rw [if_pos hw] at h
      exact ⟨i, hw, (Option.some.inj h).symm⟩
    · rw [if_neg hw] at h
      exact absurd h (by simp)
  · rintro ⟨i, hw, rfl⟩
    exact ⟨i, by rw [if_pos hw]⟩

theorem inBuffer_iff {size : Nat} {cells : List Host.Cell} : inBuffer size cells = true ↔ ∀ c ∈ cells, c.1 < size := by
  simp [inBuffer]

/-- A commit that takes place: every byte lies in the buffer, and only the buffer's content changes. -/
theorem commit_eq_some {s t : State} {d : Nat} {r : IencOut} (h : s.commit d r = some t) :
    (∀ p ∈ enabledWrites d r, p.1 < s.bufSize) ∧ t = s.withMem (s.mem.writeAll (enabledWrites d r)) := by
  simp only [State.commit] at h
  split at h
  · next hb => exact ⟨inBuffer_iff.1 hb, (Option.some.inj h).symm⟩
  · exact absurd h (by simp)

/-- A commit is refused exactly when some enabled byte lies outside the buffer. -/
theorem commit_eq_none {s : State} {d : Nat} {r : IencOut} :
    s.commit d r = none ↔ ∃ p ∈ enabledWrites d r, s.bufSize ≤ p.1 := by
  by_cases h : inBuffer s.bufSize (enabledWrites d r) = true
  · have hb := inBuffer_iff.1 h
    simp only [State.commit, if_pos h, reduceCtorEq, false_iff, not_exists, not_and]
    exact fun p hp => Nat.not_le.2 (hb p hp)
  · have hb := mt inBuffer_iff.2 h
    simp only [State.commit, if_neg h, true_iff]
    push Not at hb
    exact hb

@[simp] theorem window_length (s : State) (a n : Nat) : (s.window a n).length = n := by
  simp [State.window]

@[simp] theorem window_getElem (s : State) (a n k : Nat) (h : k < (s.window a n).length) :
    (s.window a n)[k] = s.windowByte a k := by
  simp [State.window]

/-- Inside the buffer a window shows the image. -/
theorem windowByte_of_inside {s : State} {a i : Nat} (h : a + i < s.bufSize) : s.windowByte a i = s.mem.read (a + i) := by
  simp [State.windowByte, h]

/-- A window inside the buffer is the image's bytes in order. -/
theorem window_of_inside {s : State} {a n : Nat} (h : a + n ≤ s.bufSize) :
    s.window a n = (List.range n).map fun i => s.mem.read (a + i) :=
  List.map_congr_left fun i hi => windowByte_of_inside (by have := List.mem_range.1 hi; omega)

/-- A window inside the buffer draws nothing. -/
theorem presented_of_inside {s : State} {a n : Nat} (h : a + n ≤ s.bufSize) : s.presented a n = s := by
  simp [State.presented, h]

/-- Presenting a window changes at most the counter of the free values. -/
theorem presented_eq (s : State) (a n : Nat) : s.presented a n = { s with draws := (s.presented a n).draws } := by
  unfold State.presented
  split <;> rfl

@[simp] theorem presented_config (s : State) (a n : Nat) : (s.presented a n).config = s.config := by
  rw [presented_eq]

@[simp] theorem presented_bufSize (s : State) (a n : Nat) : (s.presented a n).bufSize = s.bufSize := by
  rw [presented_eq]

@[simp] theorem presented_mem (s : State) (a n : Nat) : (s.presented a n).mem = s.mem := by
  rw [presented_eq]

@[simp] theorem presented_phase (s : State) (a n : Nat) : (s.presented a n).phase = s.phase := by
  rw [presented_eq]

@[simp] theorem presented_calls (s : State) (a n : Nat) : (s.presented a n).calls = s.calls := by
  rw [presented_eq]

@[simp] theorem presented_replies (s : State) (a n : Nat) : (s.presented a n).replies = s.replies := by
  rw [presented_eq]

@[simp] theorem presented_inflight (s : State) (a n : Nat) : (s.presented a n).inflight = s.inflight := by
  rw [presented_eq]

/-! ### One instruction -/

/-- What EncodeSeq's body can do: stop with a non-OK status, be refused, or commit and move on. -/
theorem encodeBody_cases (x : Instruction) (p : List Instruction) (e c j : Nat) (s : State) :
    let r := ienc s.config x (BitVec.ofNat 4 (min 10 (e - c)))
    (r.status ≠ .ok ∧ encodeBody x p e c j s = .next (s.finish (.encodeFailed j r.status r.slot c))) ∨
    (r.status = .ok ∧ s.commit c r = none ∧ encodeBody x p e c j s = .refused .commitOutsideBuffer) ∨
    (r.status = .ok ∧ ∃ t, s.commit c r = some t ∧
      encodeBody x p e c j s = .next (t.withPhase (.encoding p e (c + r.len.toNat) (j + 1)))) := by
  intro r
  by_cases h : r.status = .ok
  · cases hc : s.commit c r with
    | none => exact .inr (.inl ⟨h, rfl, by simp [encodeBody, r] at h hc ⊢; simp [h, hc]⟩)
    | some t => exact .inr (.inr ⟨h, t, rfl, by simp [encodeBody, r] at h hc ⊢; simp [h, hc]⟩)
  · exact .inl ⟨h, by simp [encodeBody, r] at h ⊢; simp [h]⟩

/-- What `handle` does, by the procedure in progress. -/
theorem handle_idle {s : State} (h : s.phase = .idle) (f : Format) (o : BitVec 8) (v1 v2 : BitVec 32) :
    handle f o v1 v2 s = .next (s.reply (.idec (decodedAs f o v1 v2))) := by
  simp [handle, h]

theorem handle_decoding {s : State} {c e : Nat} {l : List Entry} (h : s.phase = .decoding c e l) (f : Format)
    (o : BitVec 8) (v1 v2 : BitVec 32) :
    handle f o v1 v2 s = .next (s.withPhase (.decoding (c + f.length) e (l ++ [⟨c, decodedAs f o v1 v2⟩]))) := by
  simp [handle, h]

theorem handle_encoding {s : State} {p : List Instruction} {e c j : Nat} (h : s.phase = .encoding p e c j) (f : Format)
    (o : BitVec 8) (v1 v2 : BitVec 32) :
    handle f o v1 v2 s = encodeBody ⟨o, ⟨f.tag1, v1⟩, ⟨f.tag2, v2⟩⟩ p e c j s := by
  simp [handle, h]

/-- Everything an instruction can lead to when it leads to a next state: an answer of IDEC, an entry of DecodeSeq, a stop of
EncodeSeq, or a commit of EncodeSeq. -/
theorem exec_next_cases {i : Instr} {s t : State} (h : exec i s = .next t) :
    (s.phase = .idle ∧ ∃ r, t = s.reply r) ∨
    (∃ c e l r, s.phase = .decoding c e l ∧
      t = s.withPhase (.decoding (c + i.view.format.length) e (l ++ [⟨c, r⟩]))) ∨
    (∃ p e c j, s.phase = .encoding p e c j ∧
      ((∃ r, t = s.finish r) ∨
        ∃ (r : IencOut) (u : State), s.commit c r = some u ∧
          t = u.withPhase (.encoding p e (c + r.len.toNat) (j + 1)))) := by
  rw [exec_eq_handle] at h
  cases hp : s.phase with
  | idle =>
    rw [handle_idle hp] at h
    exact .inl ⟨rfl, _, (Host.Outcome.next.inj h).symm⟩
  | decoding c e l =>
    rw [handle_decoding hp] at h
    exact .inr (.inl ⟨c, e, l, _, rfl, (Host.Outcome.next.inj h).symm⟩)
  | encoding p e c j =>
    rw [handle_encoding hp] at h
    refine .inr (.inr ⟨p, e, c, j, rfl, ?_⟩)
    rcases encodeBody_cases ⟨i.view.opcode, ⟨i.view.format.tag1, i.view.v1⟩, ⟨i.view.format.tag2, i.view.v2⟩⟩ p e c j s with
      ⟨-, hb⟩ | ⟨-, -, hb⟩ | ⟨-, u, hu, hb⟩
    · rw [hb] at h
      exact .inl ⟨_, (Host.Outcome.next.inj h).symm⟩
    · rw [hb] at h
      exact absurd h (by simp)
    · rw [hb] at h
      exact .inr ⟨_, u, hu, (Host.Outcome.next.inj h).symm⟩

/-! ### One operation -/

/-- An IDEC of bytes presented: the decoded instruction is run, or the refusal is returned. -/
theorem performIdec_cases (bytes : List Byte) (s : State) :
    (∃ i rest, decode s.config bytes = .ok (i, rest) ∧ performIdec bytes s = exec i s) ∨
    (∃ r, decode s.config bytes = .error r ∧ performIdec bytes s = .next (s.reply (.idec (idecError r.status r.slot)))) := by
  cases h : decode s.config bytes with
  | error r => exact .inr ⟨r, rfl, by simp [performIdec, h]⟩
  | ok p => exact .inl ⟨p.1, p.2, rfl, by simp [performIdec, h]⟩

/-- A round of EncodeSeq: the stop, an instruction run, or the failure of a value that spells none. -/
theorem encodeRound_cases (p : List Instruction) (e c j : Nat) (s : State) :
    (p = [] ∧ encodeRound p e c j s = .next (s.finish (.encodeDone c))) ∨
    (∃ x rest i, p = x :: rest ∧ Instr.ofInstruction s.config x = .ok i ∧
      encodeRound p e c j s = exec i (s.withPhase (.encoding rest e c j))) ∨
    (∃ x rest r, p = x :: rest ∧ Instr.ofInstruction s.config x = .error r ∧
      encodeRound p e c j s = .next (s.finish (.encodeFailed j r.status r.slot c))) := by
  cases p with
  | nil => exact .inl ⟨rfl, rfl⟩
  | cons x rest =>
    cases h : Instr.ofInstruction s.config x with
    | ok i => exact .inr (.inl ⟨x, rest, i, rfl, h, by simp [encodeRound, h]⟩)
    | error r => exact .inr (.inr ⟨x, rest, r, rfl, h, by simp [encodeRound, h]⟩)

/-- A round of DecodeSeq: the stop, an instruction run, or the failure of bytes that spell none. -/
theorem decodeRound_cases (c e : Nat) (l : List Entry) (s : State) :
    let a := min 10 (e - c)
    (e ≤ c ∧ decodeRound c e l s = .next (s.finish (.decodeDone l))) ∨
    (∃ i rest, c < e ∧ decode s.config (s.window c a) = .ok (i, rest) ∧
      decodeRound c e l s = exec i (s.presented c a)) ∨
    (∃ r, c < e ∧ decode s.config (s.window c a) = .error r ∧
      decodeRound c e l s = .next ((s.presented c a).finish (.decodeFailed c r.status r.slot l))) := by
  intro a
  by_cases h : c < e
  · cases hd : decode s.config (s.window c a) with
    | ok p => exact .inr (.inl ⟨p.1, p.2, h, rfl, by simp only [decodeRound, h, if_true]; rw [hd]⟩)
    | error r => exact .inr (.inr ⟨r, h, rfl, by simp only [decodeRound, h, if_true]; rw [hd]⟩)
  · exact .inl ⟨by omega, by simp [decodeRound, h]⟩

theorem operate_idle_nil {s : State} (hp : s.phase = .idle) (hk : s.calls = []) : operate s = .next s := by
  simp [operate, hp, hk]

theorem operate_idle_cons {s : State} {k : Call} {ks : List Call} (hp : s.phase = .idle) (hk : s.calls = k :: ks) :
    operate s = perform k (s.withCalls ks) := by
  simp [operate, hp, hk]

theorem operate_encoding {s : State} {p : List Instruction} {e c j : Nat} (hp : s.phase = .encoding p e c j) :
    operate s = encodeRound p e c j s := by
  simp [operate, hp]

theorem operate_decoding {s : State} {c e : Nat} {l : List Entry} (hp : s.phase = .decoding c e l) :
    operate s = decodeRound c e l s := by
  simp [operate, hp]

/-- With nothing in flight a step is one operation. -/
theorem step_of_inflight_nil {s : State} (h : s.inflight = []) : step s = operate s := by
  rw [step, State.land_of_inflight_nil s h]

/-- The reset state's buffer is in canonical form. -/
theorem reset_mem_wf : State.reset.mem.wf := by
  simp [Memory.wf]

end Sys2Proof.Machine
end

