-- ==== Sys2Proof/Laws/Coder.lean ====
section
/-! SUPPORT. The coders: mode tags, VALIDATE and the selection of a format variant, lengths, and fields as bytes and values.
The statements about whole instructions are assembled from these. -/

namespace Sys2Proof.Machine

/-- The label's tag is no concrete mode's. -/
theorem ofTag_labelOrdinal (c : Config) : ConcreteMode.ofTag c.labelOrdinal = none := by
  unfold Config.labelOrdinal
  generalize c.labelOffset = k
  revert k
  decide

theorem labelOrdinal_toNat (c : Config) : 7 ≤ c.labelOrdinal.toNat := by
  unfold Config.labelOrdinal
  generalize c.labelOffset = k
  revert k
  decide

theorem ofTag_eq_none {t : BitVec 4} : ConcreteMode.ofTag t = none ↔ 7 ≤ t.toNat := by
  revert t
  decide

theorem tag_ne_labelOrdinal (c : Config) (m : ConcreteMode) : m.tag ≠ c.labelOrdinal := by
  intro h
  have := ofTag_labelOrdinal c
  rw [← h] at this
  simp at this

theorem classify_eq_concrete {c : Config} {t : BitVec 4} {m : ConcreteMode} :
    classify c t = .concrete m ↔ t = m.tag := by
  constructor
  · intro h
    unfold classify at h
    split at h
    · next m' hm =>
      cases h
      exact (tag_of_ofTag hm).symm
    · split at h <;> cases h
  · rintro rfl
    simp

theorem classify_eq_label {c : Config} {t : BitVec 4} : classify c t = .label ↔ t = c.labelOrdinal := by
  constructor
  · intro h
    unfold classify at h
    split at h
    · cases h
    · split at h
      · assumption
      · cases h
  · rintro rfl
    simp [classify, ofTag_labelOrdinal]

theorem classify_eq_unknown {c : Config} {t : BitVec 4} :
    classify c t = .unknown ↔ 7 ≤ t.toNat ∧ t ≠ c.labelOrdinal := by
  rw [← ofTag_eq_none]
  unfold classify
  cases h : ConcreteMode.ofTag t with
  | some m => simp
  | none => by_cases ht : t = c.labelOrdinal <;> simp [ht]

theorem width_valid (c : Config) (t : BitVec 4) : (width c t).valid = false ↔ classify c t = .unknown := by
  unfold width
  cases classify c t <;> simp

theorem width_tag (c : Config) (m : ConcreteMode) : width c m.tag = ⟨true, BitVec.ofNat 3 m.width⟩ := by
  simp [width]

theorem width_label (c : Config) : width c c.labelOrdinal = ⟨true, 4⟩ := by
  simp [width, classify_eq_label.2 rfl, ConcreteMode.width]

theorem width_toNat (m : ConcreteMode) : (BitVec.ofNat 3 m.width).toNat = m.width := by
  cases m <;> rfl

/-- VALIDATE for emission is the selection of a format variant, with the same refusals. -/
theorem validate_true (c : Config) (o : BitVec 8) (m1 m2 : BitVec 4) :
    validate c o m1 m2 true =
      match c.declared o with
      | none => ⟨.undefinedOpcode, .whole⟩
      | some pc =>
        match formatOf c pc m1 m2 with
        | .ok _ => ⟨.ok, .whole⟩
        | .error r => ⟨r.status, r.slot⟩ := by
  unfold validate
  cases hd : c.declared o with
  | none => rfl
  | some pc =>
    simp only [width_valid]
    cases pc with
    | zero =>
      simp only [ParamCount.toNat, formatOf]
      by_cases h1 : m1 = 0#4 <;> by_cases h2 : m2 = 0#4 <;> simp [h1, h2]
    | one =>
      simp only [ParamCount.toNat, formatOf]
      cases h1 : classify c m1 with
      | unknown => simp
      | label =>
        have := classify_eq_label.1 h1
        by_cases h2 : m2 = 0#4 <;> simp [h2, this]
      | concrete m =>
        have := classify_eq_concrete.1 h1
        have := tag_ne_labelOrdinal c m
        by_cases h2 : m2 = 0 <;> simp_all
    | two =>
      simp only [ParamCount.toNat, formatOf]
      cases h1 : classify c m1 with
      | unknown => simp
      | label =>
        have e1 := classify_eq_label.1 h1
        cases h2 : classify c m2 with
        | unknown => simp
        | label => simp [e1]
        | concrete m => simp [e1]
      | concrete m =>
        have e1 := classify_eq_concrete.1 h1
        have := tag_ne_labelOrdinal c m
        cases h2 : classify c m2 with
        | unknown => simp
        | label =>
          have e2 := classify_eq_label.1 h2
          simp_all
        | concrete m' =>
          have e2 := classify_eq_concrete.1 h2
          have := tag_ne_labelOrdinal c m'
          simp_all

/-- The tags and the count a format variant was selected from. -/
theorem formatOf_ok {c : Config} {pc : ParamCount} {t1 t2 : BitVec 4} {f : Format} (h : formatOf c pc t1 t2 = .ok f) :
    pc = f.count ∧ t1 = f.tag1 ∧ t2 = f.tag2 := by
  cases pc with
  | zero =>
    simp only [formatOf] at h
    split_ifs at h with h1 h2
    cases h
    simp_all [Format.count, Format.tag1, Format.tag2]
  | one =>
    simp only [formatOf] at h
    cases hc : classify c t1 with
    | unknown => simp [hc] at h
    | label => simp only [hc] at h; split_ifs at h
    | concrete m =>
      simp only [hc] at h
      split_ifs at h with h2
      cases h
      simp_all [Format.count, Format.tag1, Format.tag2, classify_eq_concrete]
  | two =>
    simp only [formatOf] at h
    cases h1 : classify c t1 <;> cases h2 : classify c t2 <;> simp only [h1, h2, reduceCtorEq] at h
    cases h
    simp_all [Format.count, Format.tag1, Format.tag2, classify_eq_concrete]

/-- A format variant is selected by its own count and tags. -/
theorem formatOf_tags (c : Config) (f : Format) : formatOf c f.count f.tag1 f.tag2 = .ok f := by
  cases f <;> simp [formatOf, Format.count, Format.tag1, Format.tag2]

/-- No refusal of the decoder carries the status OK. -/
theorem formatOf_error {c : Config} {pc : ParamCount} {t1 t2 : BitVec 4} {r : Reject} (h : formatOf c pc t1 t2 = .error r) :
    r.status = .unknownMode ∨ r.status = .absentModeNonzero ∨ r.status = .unresolvedLabel := by
  cases pc with
  | zero =>
    simp only [formatOf] at h
    split_ifs at h <;> cases h <;> simp
  | one =>
    simp only [formatOf] at h
    cases hc : classify c t1 <;> simp only [hc] at h <;> (try split_ifs at h) <;> cases h <;> simp
  | two =>
    simp only [formatOf] at h
    cases h1 : classify c t1 <;> cases h2 : classify c t2 <;> simp only [h1, h2] at h <;> cases h <;> simp

/-- The sum LEN computes for a format variant is its length. -/
theorem lengthSum_format (c : Config) (f : Format) : lengthSum c f.count f.tag1 f.tag2 = f.length := by
  cases f with
  | f0 => rfl
  | f1 m =>
    have := width_le m
    simp [lengthSum, Format.count, Format.tag1, Format.length, ParamCount.toNat, width_tag]
    omega
  | f2 m1 m2 =>
    have := width_le m1
    have := width_le m2
    simp [lengthSum, Format.count, Format.tag1, Format.tag2, Format.length, ParamCount.toNat, width_tag]
    omega

/-- VALIDATE for sizing accepts the tags of a format variant. -/
theorem validate_false_format {c : Config} {o : BitVec 8} {f : Format} (h : c.declared o = some f.count) :
    validate c o f.tag1 f.tag2 false = ⟨.ok, .whole⟩ := by
  cases f <;> simp [validate, h, Format.count, Format.tag1, Format.tag2, ParamCount.toNat, width_tag]

/-- LEN of a format variant. -/
theorem len_format {c : Config} {o : BitVec 8} {f : Format} (h : c.declared o = some f.count) :
    len c o f.tag1 f.tag2 = ⟨.ok, .whole, BitVec.ofNat 4 f.length⟩ := by
  simp [len, h, validate_false_format h, lengthSum_format]

theorem format_length_toNat (f : Format) : (BitVec.ofNat 4 f.length).toNat = f.length := by
  have := format_length_le f
  simp only [BitVec.toNat_ofNat]
  omega

/-- The bytes IENC lays out for a slot of a concrete mode. -/
theorem fieldBytes_tag (m : ConcreteMode) (v : BitVec 32) :
    fieldBytes ⟨m.tag, v⟩ = (leBytes m.width v).map fun b => (b, true) := by
  cases m <;> rfl

/-- The bytes of a format variant after its opcode byte: the mode byte and the fields (R67, R68). -/
def formatTail (f : Format) (v1 v2 : BitVec 32) : List Byte :=
  match f with
  | .f0 => []
  | .f1 m => packModes m.tag 0 :: leBytes m.width v1
  | .f2 m1 m2 => packModes m1.tag m2.tag :: (leBytes m1.width v1 ++ leBytes m2.width v2)

/-- The rows' encodings, in one form. -/
theorem encode_eq (i : Instr) : encode i = i.view.opcode :: formatTail i.view.format i.view.v1 i.view.v2 := by
  cases i <;> rfl

/-! ### Fields: bytes and values -/

theorem unLE_lt (bs : List Byte) : unLE bs < 2 ^ (8 * bs.length) := by
  induction bs with
  | nil => simp [unLE]
  | cons b t ih =>
    have hb := b.isLt
    simp only [unLE, List.length_cons, Nat.mul_add, Nat.pow_add]
    omega

/-- The field of a mode holds the value truncated to its width (R10, R78). -/
theorem unLE_leBytes (m : ConcreteMode) (v : BitVec 32) : unLE (leBytes m.width v) = v.toNat % 2 ^ (8 * m.width) := by
  have h := v.isLt
  cases m <;>
    simp [leBytes, ConcreteMode.width, unLE, List.range_succ, BitVec.extractLsb'_toNat, Nat.shiftRight_eq_div_pow] <;> omega

theorem clip_eq (m : ConcreteMode) (v : BitVec 32) : BitVec.ofNat 32 (unLE (leBytes m.width v)) = m.clip v := by
  rw [unLE_leBytes]
  rfl

/-- A truncated value fits its field. -/
theorem clip_toNat (m : ConcreteMode) (v : BitVec 32) : (m.clip v).toNat = v.toNat % 2 ^ (8 * m.width) := by
  have h := v.isLt
  have := Nat.mod_le v.toNat (2 ^ (8 * m.width))
  simp only [ConcreteMode.clip, BitVec.toNat_ofNat]
  exact Nat.mod_eq_of_lt (by omega)

theorem clip_of_fits {m : ConcreteMode} {v : BitVec 32} (h : fitsField m v = true) : m.clip v = v := by
  apply BitVec.eq_of_toNat_eq
  rw [clip_toNat, Nat.mod_eq_of_lt (by simpa [fitsField] using h)]

/-- A field of a mode's width is the encoding of its value. -/
theorem leBytes_unLE (m : ConcreteMode) (bs : List Byte) (h : bs.length = m.width) :
    leBytes m.width (BitVec.ofNat 32 (unLE bs)) = bs := by
  have hlt := unLE_lt bs
  cases m <;> simp only [ConcreteMode.width] at h ⊢ <;>
    first
    | (obtain ⟨a, rfl⟩ := List.length_eq_one_iff.1 h
       simp [leBytes, List.range_succ, unLE, BitVec.toNat_eq]
       exact a.isLt)
    | (obtain ⟨a, b, rfl⟩ := List.length_eq_two.1 h
       simp [leBytes, List.range_succ, unLE]
       refine ⟨?_, ?_⟩ <;> apply BitVec.eq_of_toNat_eq <;> simp [Nat.shiftRight_eq_div_pow] <;> omega)
    | (match bs, h with
       | [a, b, c, d], _ =>
         simp [leBytes, List.range_succ, unLE]
         refine ⟨?_, ?_, ?_, ?_⟩ <;> apply BitVec.eq_of_toNat_eq <;> simp [Nat.shiftRight_eq_div_pow] <;> omega)

/-- A field at the front of the bytes is taken whole. -/
theorem takeField_leBytes (m : ConcreteMode) (v : BitVec 32) (rest : List Byte) :
    takeField m (leBytes m.width v ++ rest) = some (m.clip v, rest) := by
  have hl : (leBytes m.width v).length = m.width := leBytes_length _ _
  simp only [takeField, List.length_append, hl]
  rw [if_neg (by omega), List.take_left' hl, List.drop_left' hl, clip_eq]

/-- What a field taken says of the bytes: they begin with its encoding, and it fits. -/
theorem takeField_eq_some {m : ConcreteMode} {bs rest : List Byte} {v : BitVec 32} (h : takeField m bs = some (v, rest)) :
    fitsField m v = true ∧ bs = leBytes m.width v ++ rest := by
  unfold takeField at h
  split at h
  · cases h
  · next hl =>
    have hlen : (bs.take m.width).length = m.width := by simp; omega
    obtain ⟨rfl, rfl⟩ := Prod.mk.inj (Option.some.inj h)
    constructor
    · have hlt := unLE_lt (bs.take m.width)
      rw [hlen] at hlt
      have := width_le m
      simp only [fitsField, BitVec.toNat_ofNat, decide_eq_true_eq]
      exact lt_of_le_of_lt (Nat.mod_le _ _) hlt
    · rw [leBytes_unLE m _ hlen, List.take_append_drop]

/-- A field cannot be taken exactly when bytes are missing. -/
theorem takeField_eq_none {m : ConcreteMode} {bs : List Byte} : takeField m bs = none ↔ bs.length < m.width := by
  unfold takeField
  split <;> simp_all

theorem hiNibble_packModes (a b : BitVec 4) : hiNibble (packModes a b) = a := by
  revert a b
  decide

theorem loNibble_packModes (a b : BitVec 4) : loNibble (packModes a b) = b := by
  revert a b
  decide

theorem packModes_nibbles (b : Byte) : packModes (hiNibble b) (loNibble b) = b := by
  revert b
  decide

end Sys2Proof.Machine
end

