-- ==== Sys2Proof/Laws/PerInstr.lean ====
section
/-! SUPPORT. Lemmas made once per constructor of `Instr`. -/

namespace Sys2Proof.Laws

/-- An instruction's encoding is as long as its format variant says (30_encoding.md R68, R71). -/
def EncodedLength.Statement (i : Instr) : Prop :=
  (encode i).length = i.view.format.length

theorem EncodedLength.f0 (o : BitVec 8) : EncodedLength.Statement (.f0 o) := rfl

theorem EncodedLength.f1Constant8 (o : BitVec 8) (v1 : BitVec 32) : EncodedLength.Statement (.f1Constant8 o v1) := rfl

theorem EncodedLength.f1Constant16 (o : BitVec 8) (v1 : BitVec 32) : EncodedLength.Statement (.f1Constant16 o v1) := rfl

theorem EncodedLength.f1Constant32 (o : BitVec 8) (v1 : BitVec 32) : EncodedLength.Statement (.f1Constant32 o v1) := rfl

theorem EncodedLength.f1AbsoluteAddress (o : BitVec 8) (v1 : BitVec 32) : EncodedLength.Statement (.f1AbsoluteAddress o v1) := rfl

theorem EncodedLength.f1RelativeAddress (o : BitVec 8) (v1 : BitVec 32) : EncodedLength.Statement (.f1RelativeAddress o v1) := rfl

theorem EncodedLength.f1RegisterAddress (o : BitVec 8) (v1 : BitVec 32) : EncodedLength.Statement (.f1RegisterAddress o v1) := rfl

theorem EncodedLength.f1Register (o : BitVec 8) (v1 : BitVec 32) : EncodedLength.Statement (.f1Register o v1) := rfl

theorem EncodedLength.f2Constant8Constant8 (o : BitVec 8) (v1 : BitVec 32) (v2 : BitVec 32) : EncodedLength.Statement (.f2Constant8Constant8 o v1 v2) := rfl

theorem EncodedLength.f2Constant8Constant16 (o : BitVec 8) (v1 : BitVec 32) (v2 : BitVec 32) : EncodedLength.Statement (.f2Constant8Constant16 o v1 v2) := rfl

theorem EncodedLength.f2Constant8Constant32 (o : BitVec 8) (v1 : BitVec 32) (v2 : BitVec 32) : EncodedLength.Statement (.f2Constant8Constant32 o v1 v2) := rfl

theorem EncodedLength.f2Constant8AbsoluteAddress (o : BitVec 8) (v1 : BitVec 32) (v2 : BitVec 32) : EncodedLength.Statement (.f2Constant8AbsoluteAddress o v1 v2) := rfl

theorem EncodedLength.f2Constant8RelativeAddress (o : BitVec 8) (v1 : BitVec 32) (v2 : BitVec 32) : EncodedLength.Statement (.f2Constant8RelativeAddress o v1 v2) := rfl

theorem EncodedLength.f2Constant8RegisterAddress (o : BitVec 8) (v1 : BitVec 32) (v2 : BitVec 32) : EncodedLength.Statement (.f2Constant8RegisterAddress o v1 v2) := rfl

theorem EncodedLength.f2Constant8Register (o : BitVec 8) (v1 : BitVec 32) (v2 : BitVec 32) : EncodedLength.Statement (.f2Constant8Register o v1 v2) := rfl

theorem EncodedLength.f2Constant16Constant8 (o : BitVec 8) (v1 : BitVec 32) (v2 : BitVec 32) : EncodedLength.Statement (.f2Constant16Constant8 o v1 v2) := rfl

theorem EncodedLength.f2Constant16Constant16 (o : BitVec 8) (v1 : BitVec 32) (v2 : BitVec 32) : EncodedLength.Statement (.f2Constant16Constant16 o v1 v2) := rfl

theorem EncodedLength.f2Constant16Constant32 (o : BitVec 8) (v1 : BitVec 32) (v2 : BitVec 32) : EncodedLength.Statement (.f2Constant16Constant32 o v1 v2) := rfl

theorem EncodedLength.f2Constant16AbsoluteAddress (o : BitVec 8) (v1 : BitVec 32) (v2 : BitVec 32) : EncodedLength.Statement (.f2Constant16AbsoluteAddress o v1 v2) := rfl

theorem EncodedLength.f2Constant16RelativeAddress (o : BitVec 8) (v1 : BitVec 32) (v2 : BitVec 32) : EncodedLength.Statement (.f2Constant16RelativeAddress o v1 v2) := rfl

theorem EncodedLength.f2Constant16RegisterAddress (o : BitVec 8) (v1 : BitVec 32) (v2 : BitVec 32) : EncodedLength.Statement (.f2Constant16RegisterAddress o v1 v2) := rfl

theorem EncodedLength.f2Constant16Register (o : BitVec 8) (v1 : BitVec 32) (v2 : BitVec 32) : EncodedLength.Statement (.f2Constant16Register o v1 v2) := rfl

theorem EncodedLength.f2Constant32Constant8 (o : BitVec 8) (v1 : BitVec 32) (v2 : BitVec 32) : EncodedLength.Statement (.f2Constant32Constant8 o v1 v2) := rfl

theorem EncodedLength.f2Constant32Constant16 (o : BitVec 8) (v1 : BitVec 32) (v2 : BitVec 32) : EncodedLength.Statement (.f2Constant32Constant16 o v1 v2) := rfl

theorem EncodedLength.f2Constant32Constant32 (o : BitVec 8) (v1 : BitVec 32) (v2 : BitVec 32) : EncodedLength.Statement (.f2Constant32Constant32 o v1 v2) := rfl

theorem EncodedLength.f2Constant32AbsoluteAddress (o : BitVec 8) (v1 : BitVec 32) (v2 : BitVec 32) : EncodedLength.Statement (.f2Constant32AbsoluteAddress o v1 v2) := rfl

theorem EncodedLength.f2Constant32RelativeAddress (o : BitVec 8) (v1 : BitVec 32) (v2 : BitVec 32) : EncodedLength.Statement (.f2Constant32RelativeAddress o v1 v2) := rfl

theorem EncodedLength.f2Constant32RegisterAddress (o : BitVec 8) (v1 : BitVec 32) (v2 : BitVec 32) : EncodedLength.Statement (.f2Constant32RegisterAddress o v1 v2) := rfl

theorem EncodedLength.f2Constant32Register (o : BitVec 8) (v1 : BitVec 32) (v2 : BitVec 32) : EncodedLength.Statement (.f2Constant32Register o v1 v2) := rfl

theorem EncodedLength.f2AbsoluteAddressConstant8 (o : BitVec 8) (v1 : BitVec 32) (v2 : BitVec 32) : EncodedLength.Statement (.f2AbsoluteAddressConstant8 o v1 v2) := rfl

theorem EncodedLength.f2AbsoluteAddressConstant16 (o : BitVec 8) (v1 : BitVec 32) (v2 : BitVec 32) : EncodedLength.Statement (.f2AbsoluteAddressConstant16 o v1 v2) := rfl

theorem EncodedLength.f2AbsoluteAddressConstant32 (o : BitVec 8) (v1 : BitVec 32) (v2 : BitVec 32) : EncodedLength.Statement (.f2AbsoluteAddressConstant32 o v1 v2) := rfl

theorem EncodedLength.f2AbsoluteAddressAbsoluteAddress (o : BitVec 8) (v1 : BitVec 32) (v2 : BitVec 32) : EncodedLength.Statement (.f2AbsoluteAddressAbsoluteAddress o v1 v2) := rfl

theorem EncodedLength.f2AbsoluteAddressRelativeAddress (o : BitVec 8) (v1 : BitVec 32) (v2 : BitVec 32) : EncodedLength.Statement (.f2AbsoluteAddressRelativeAddress o v1 v2) := rfl

theorem EncodedLength.f2AbsoluteAddressRegisterAddress (o : BitVec 8) (v1 : BitVec 32) (v2 : BitVec 32) : EncodedLength.Statement (.f2AbsoluteAddressRegisterAddress o v1 v2) := rfl

theorem EncodedLength.f2AbsoluteAddressRegister (o : BitVec 8) (v1 : BitVec 32) (v2 : BitVec 32) : EncodedLength.Statement (.f2AbsoluteAddressRegister o v1 v2) := rfl

theorem EncodedLength.f2RelativeAddressConstant8 (o : BitVec 8) (v1 : BitVec 32) (v2 : BitVec 32) : EncodedLength.Statement (.f2RelativeAddressConstant8 o v1 v2) := rfl

theorem EncodedLength.f2RelativeAddressConstant16 (o : BitVec 8) (v1 : BitVec 32) (v2 : BitVec 32) : EncodedLength.Statement (.f2RelativeAddressConstant16 o v1 v2) := rfl

theorem EncodedLength.f2RelativeAddressConstant32 (o : BitVec 8) (v1 : BitVec 32) (v2 : BitVec 32) : EncodedLength.Statement (.f2RelativeAddressConstant32 o v1 v2) := rfl

theorem EncodedLength.f2RelativeAddressAbsoluteAddress (o : BitVec 8) (v1 : BitVec 32) (v2 : BitVec 32) : EncodedLength.Statement (.f2RelativeAddressAbsoluteAddress o v1 v2) := rfl

theorem EncodedLength.f2RelativeAddressRelativeAddress (o : BitVec 8) (v1 : BitVec 32) (v2 : BitVec 32) : EncodedLength.Statement (.f2RelativeAddressRelativeAddress o v1 v2) := rfl

theorem EncodedLength.f2RelativeAddressRegisterAddress (o : BitVec 8) (v1 : BitVec 32) (v2 : BitVec 32) : EncodedLength.Statement (.f2RelativeAddressRegisterAddress o v1 v2) := rfl

theorem EncodedLength.f2RelativeAddressRegister (o : BitVec 8) (v1 : BitVec 32) (v2 : BitVec 32) : EncodedLength.Statement (.f2RelativeAddressRegister o v1 v2) := rfl

theorem EncodedLength.f2RegisterAddressConstant8 (o : BitVec 8) (v1 : BitVec 32) (v2 : BitVec 32) : EncodedLength.Statement (.f2RegisterAddressConstant8 o v1 v2) := rfl

theorem EncodedLength.f2RegisterAddressConstant16 (o : BitVec 8) (v1 : BitVec 32) (v2 : BitVec 32) : EncodedLength.Statement (.f2RegisterAddressConstant16 o v1 v2) := rfl

theorem EncodedLength.f2RegisterAddressConstant32 (o : BitVec 8) (v1 : BitVec 32) (v2 : BitVec 32) : EncodedLength.Statement (.f2RegisterAddressConstant32 o v1 v2) := rfl

theorem EncodedLength.f2RegisterAddressAbsoluteAddress (o : BitVec 8) (v1 : BitVec 32) (v2 : BitVec 32) : EncodedLength.Statement (.f2RegisterAddressAbsoluteAddress o v1 v2) := rfl

theorem EncodedLength.f2RegisterAddressRelativeAddress (o : BitVec 8) (v1 : BitVec 32) (v2 : BitVec 32) : EncodedLength.Statement (.f2RegisterAddressRelativeAddress o v1 v2) := rfl

theorem EncodedLength.f2RegisterAddressRegisterAddress (o : BitVec 8) (v1 : BitVec 32) (v2 : BitVec 32) : EncodedLength.Statement (.f2RegisterAddressRegisterAddress o v1 v2) := rfl

theorem EncodedLength.f2RegisterAddressRegister (o : BitVec 8) (v1 : BitVec 32) (v2 : BitVec 32) : EncodedLength.Statement (.f2RegisterAddressRegister o v1 v2) := rfl

theorem EncodedLength.f2RegisterConstant8 (o : BitVec 8) (v1 : BitVec 32) (v2 : BitVec 32) : EncodedLength.Statement (.f2RegisterConstant8 o v1 v2) := rfl

theorem EncodedLength.f2RegisterConstant16 (o : BitVec 8) (v1 : BitVec 32) (v2 : BitVec 32) : EncodedLength.Statement (.f2RegisterConstant16 o v1 v2) := rfl

theorem EncodedLength.f2RegisterConstant32 (o : BitVec 8) (v1 : BitVec 32) (v2 : BitVec 32) : EncodedLength.Statement (.f2RegisterConstant32 o v1 v2) := rfl

theorem EncodedLength.f2RegisterAbsoluteAddress (o : BitVec 8) (v1 : BitVec 32) (v2 : BitVec 32) : EncodedLength.Statement (.f2RegisterAbsoluteAddress o v1 v2) := rfl

theorem EncodedLength.f2RegisterRelativeAddress (o : BitVec 8) (v1 : BitVec 32) (v2 : BitVec 32) : EncodedLength.Statement (.f2RegisterRelativeAddress o v1 v2) := rfl

theorem EncodedLength.f2RegisterRegisterAddress (o : BitVec 8) (v1 : BitVec 32) (v2 : BitVec 32) : EncodedLength.Statement (.f2RegisterRegisterAddress o v1 v2) := rfl

theorem EncodedLength.f2RegisterRegister (o : BitVec 8) (v1 : BitVec 32) (v2 : BitVec 32) : EncodedLength.Statement (.f2RegisterRegister o v1 v2) := rfl

end Sys2Proof.Laws
end

