-- ==== Sys2Proof/Tests/Slice0.lean ====
section
/-! SUPPORT. Tests on fixed values and witnesses of hypotheses. Expected results are taken from 95_test_vectors.md or worked
out by hand from the encodings of 30_encoding.md R68 and spec/opcode_table.json. -/

namespace Sys2Proof.Tests

open Sys2Proof Sys2Proof.Machine Sys2Proof.Statements

/-- Configuration T of 95_test_vectors.md (invented there for testing), with two of its register names. -/
def cfgT : Config :=
  ⟨[(0x00, .zero), (0x01, .one), (0x02, .two), (0x41, .one), (0x42, .zero)],
    [(0x00, ['t', '0']), (0x01, ['t', '1']), (0x02, ['t', '2']), (0x41, ['t', '1', 'b'])],
    [(0, ['r', '0']), (1, ['r', '1'])], 0, false⟩

/-- Configuration T with the legacy gate. -/
def cfgGate : Config := { cfgT with legacyModeGate := true }

/-- A structural instruction value from its parts. -/
def ins (o : BitVec 8) (m1 : BitVec 4) (v1 : BitVec 32) (m2 : BitVec 4) (v2 : BitVec 32) : Instruction :=
  ⟨o, ⟨m1, v1⟩, ⟨m2, v2⟩⟩

/-- A small state: configuration T, a buffer of 32 bytes, a procedure and calls. -/
def small (p : Phase) (k : List Call) (m : Memory) : Machine.State :=
  { State.reset with config := cfgT, bufSize := 32, mem := m, phase := p, calls := k }

/-- The buffer content `02 61 01 34 12` (program P1's first instruction). -/
def memP1 : Memory := [(0, 0x02), (1, 0x61), (2, 0x01), (3, 0x34), (4, 0x12)]

/-- P1's first instruction as a window. -/
def winP1 : Vector Byte 10 := #v[0x02, 0x61, 0x01, 0x34, 0x12, 0, 0, 0, 0, 0]

/-! ### Decoding: every row's word, written out from spec/opcode_table.json -/

theorem test_decode_f0 :
    decode cfgT [0x00] = .ok (.f0 0x00, []) := by
  decide

theorem test_decode_f1 :
    decode cfgT [0x01, 0x00, 0x11] = .ok (.f1Constant8 0x01 0x11, []) ∧
    decode cfgT [0x01, 0x10, 0x11, 0x22] = .ok (.f1Constant16 0x01 0x2211, []) ∧
    decode cfgT [0x01, 0x20, 0x11, 0x22, 0x33, 0x44] = .ok (.f1Constant32 0x01 0x44332211, []) ∧
    decode cfgT [0x01, 0x30, 0x11, 0x22, 0x33, 0x44] = .ok (.f1AbsoluteAddress 0x01 0x44332211, []) ∧
    decode cfgT [0x01, 0x40, 0x11, 0x22, 0x33, 0x44] = .ok (.f1RelativeAddress 0x01 0x44332211, []) ∧
    decode cfgT [0x01, 0x50, 0x11] = .ok (.f1RegisterAddress 0x01 0x11, []) ∧
    decode cfgT [0x01, 0x60, 0x11] = .ok (.f1Register 0x01 0x11, []) := by
  decide

theorem test_decode_f2_constant8 :
    decode cfgT [0x02, 0x00, 0x11, 0xA1] = .ok (.f2Constant8Constant8 0x02 0x11 0xA1, []) ∧
    decode cfgT [0x02, 0x01, 0x11, 0xA1, 0xB2] = .ok (.f2Constant8Constant16 0x02 0x11 0xB2A1, []) ∧
    decode cfgT [0x02, 0x02, 0x11, 0xA1, 0xB2, 0xC3, 0xD4] = .ok (.f2Constant8Constant32 0x02 0x11 0xD4C3B2A1, []) ∧
    decode cfgT [0x02, 0x03, 0x11, 0xA1, 0xB2, 0xC3, 0xD4] = .ok (.f2Constant8AbsoluteAddress 0x02 0x11 0xD4C3B2A1, []) ∧
    decode cfgT [0x02, 0x04, 0x11, 0xA1, 0xB2, 0xC3, 0xD4] = .ok (.f2Constant8RelativeAddress 0x02 0x11 0xD4C3B2A1, []) ∧
    decode cfgT [0x02, 0x05, 0x11, 0xA1] = .ok (.f2Constant8RegisterAddress 0x02 0x11 0xA1, []) ∧
    decode cfgT [0x02, 0x06, 0x11, 0xA1] = .ok (.f2Constant8Register 0x02 0x11 0xA1, []) := by
  decide

theorem test_decode_f2_constant16 :
    decode cfgT [0x02, 0x10, 0x11, 0x22, 0xA1] = .ok (.f2Constant16Constant8 0x02 0x2211 0xA1, []) ∧
    decode cfgT [0x02, 0x11, 0x11, 0x22, 0xA1, 0xB2] = .ok (.f2Constant16Constant16 0x02 0x2211 0xB2A1, []) ∧
    decode cfgT [0x02, 0x12, 0x11, 0x22, 0xA1, 0xB2, 0xC3, 0xD4] = .ok (.f2Constant16Constant32 0x02 0x2211 0xD4C3B2A1, []) ∧
    decode cfgT [0x02, 0x13, 0x11, 0x22, 0xA1, 0xB2, 0xC3, 0xD4] = .ok (.f2Constant16AbsoluteAddress 0x02 0x2211 0xD4C3B2A1, []) ∧
    decode cfgT [0x02, 0x14, 0x11, 0x22, 0xA1, 0xB2, 0xC3, 0xD4] = .ok (.f2Constant16RelativeAddress 0x02 0x2211 0xD4C3B2A1, []) ∧
    decode cfgT [0x02, 0x15, 0x11, 0x22, 0xA1] = .ok (.f2Constant16RegisterAddress 0x02 0x2211 0xA1, []) ∧
    decode cfgT [0x02, 0x16, 0x11, 0x22, 0xA1] = .ok (.f2Constant16Register 0x02 0x2211 0xA1, []) := by
  decide

theorem test_decode_f2_constant32 :
    decode cfgT [0x02, 0x20, 0x11, 0x22, 0x33, 0x44, 0xA1] = .ok (.f2Constant32Constant8 0x02 0x44332211 0xA1, []) ∧
    decode cfgT [0x02, 0x21, 0x11, 0x22, 0x33, 0x44, 0xA1, 0xB2] = .ok (.f2Constant32Constant16 0x02 0x44332211 0xB2A1, []) ∧
    decode cfgT [0x02, 0x22, 0x11, 0x22, 0x33, 0x44, 0xA1, 0xB2, 0xC3, 0xD4] = .ok (.f2Constant32Constant32 0x02 0x44332211 0xD4C3B2A1, []) ∧
    decode cfgT [0x02, 0x23, 0x11, 0x22, 0x33, 0x44, 0xA1, 0xB2, 0xC3, 0xD4] = .ok (.f2Constant32AbsoluteAddress 0x02 0x44332211 0xD4C3B2A1, []) ∧
    decode cfgT [0x02, 0x24, 0x11, 0x22, 0x33, 0x44, 0xA1, 0xB2, 0xC3, 0xD4] = .ok (.f2Constant32RelativeAddress 0x02 0x44332211 0xD4C3B2A1, []) ∧
    decode cfgT [0x02, 0x25, 0x11, 0x22, 0x33, 0x44, 0xA1] = .ok (.f2Constant32RegisterAddress 0x02 0x44332211 0xA1, []) ∧
    decode cfgT [0x02, 0x26, 0x11, 0x22, 0x33, 0x44, 0xA1] = .ok (.f2Constant32Register 0x02 0x44332211 0xA1, []) := by
  decide

theorem test_decode_f2_absolute_address :
    decode cfgT [0x02, 0x30, 0x11, 0x22, 0x33, 0x44, 0xA1] = .ok (.f2AbsoluteAddressConstant8 0x02 0x44332211 0xA1, []) ∧
    decode cfgT [0x02, 0x31, 0x11, 0x22, 0x33, 0x44, 0xA1, 0xB2] = .ok (.f2AbsoluteAddressConstant16 0x02 0x44332211 0xB2A1, []) ∧
    decode cfgT [0x02, 0x32, 0x11, 0x22, 0x33, 0x44, 0xA1, 0xB2, 0xC3, 0xD4] = .ok (.f2AbsoluteAddressConstant32 0x02 0x44332211 0xD4C3B2A1, []) ∧
    decode cfgT [0x02, 0x33, 0x11, 0x22, 0x33, 0x44, 0xA1, 0xB2, 0xC3, 0xD4] = .ok (.f2AbsoluteAddressAbsoluteAddress 0x02 0x44332211 0xD4C3B2A1, []) ∧
    decode cfgT [0x02, 0x34, 0x11, 0x22, 0x33, 0x44, 0xA1, 0xB2, 0xC3, 0xD4] = .ok (.f2AbsoluteAddressRelativeAddress 0x02 0x44332211 0xD4C3B2A1, []) ∧
    decode cfgT [0x02, 0x35, 0x11, 0x22, 0x33, 0x44, 0xA1] = .ok (.f2AbsoluteAddressRegisterAddress 0x02 0x44332211 0xA1, []) ∧
    decode cfgT [0x02, 0x36, 0x11, 0x22, 0x33, 0x44, 0xA1] = .ok (.f2AbsoluteAddressRegister 0x02 0x44332211 0xA1, []) := by
  decide

theorem test_decode_f2_relative_address :
    decode cfgT [0x02, 0x40, 0x11, 0x22, 0x33, 0x44, 0xA1] = .ok (.f2RelativeAddressConstant8 0x02 0x44332211 0xA1, []) ∧
    decode cfgT [0x02, 0x41, 0x11, 0x22, 0x33, 0x44, 0xA1, 0xB2] = .ok (.f2RelativeAddressConstant16 0x02 0x44332211 0xB2A1, []) ∧
    decode cfgT [0x02, 0x42, 0x11, 0x22, 0x33, 0x44, 0xA1, 0xB2, 0xC3, 0xD4] = .ok (.f2RelativeAddressConstant32 0x02 0x44332211 0xD4C3B2A1, []) ∧
    decode cfgT [0x02, 0x43, 0x11, 0x22, 0x33, 0x44, 0xA1, 0xB2, 0xC3, 0xD4] = .ok (.f2RelativeAddressAbsoluteAddress 0x02 0x44332211 0xD4C3B2A1, []) ∧
    decode cfgT [0x02, 0x44, 0x11, 0x22, 0x33, 0x44, 0xA1, 0xB2, 0xC3, 0xD4] = .ok (.f2RelativeAddressRelativeAddress 0x02 0x44332211 0xD4C3B2A1, []) ∧
    decode cfgT [0x02, 0x45, 0x11, 0x22, 0x33, 0x44, 0xA1] = .ok (.f2RelativeAddressRegisterAddress 0x02 0x44332211 0xA1, []) ∧
    decode cfgT [0x02, 0x46, 0x11, 0x22, 0x33, 0x44, 0xA1] = .ok (.f2RelativeAddressRegister 0x02 0x44332211 0xA1, []) := by
  decide

theorem test_decode_f2_register_address :
    decode cfgT [0x02, 0x50, 0x11, 0xA1] = .ok (.f2RegisterAddressConstant8 0x02 0x11 0xA1, []) ∧
    decode cfgT [0x02, 0x51, 0x11, 0xA1, 0xB2] = .ok (.f2RegisterAddressConstant16 0x02 0x11 0xB2A1, []) ∧
    decode cfgT [0x02, 0x52, 0x11, 0xA1, 0xB2, 0xC3, 0xD4] = .ok (.f2RegisterAddressConstant32 0x02 0x11 0xD4C3B2A1, []) ∧
    decode cfgT [0x02, 0x53, 0x11, 0xA1, 0xB2, 0xC3, 0xD4] = .ok (.f2RegisterAddressAbsoluteAddress 0x02 0x11 0xD4C3B2A1, []) ∧
    decode cfgT [0x02, 0x54, 0x11, 0xA1, 0xB2, 0xC3, 0xD4] = .ok (.f2RegisterAddressRelativeAddress 0x02 0x11 0xD4C3B2A1, []) ∧
    decode cfgT [0x02, 0x55, 0x11, 0xA1] = .ok (.f2RegisterAddressRegisterAddress 0x02 0x11 0xA1, []) ∧
    decode cfgT [0x02, 0x56, 0x11, 0xA1] = .ok (.f2RegisterAddressRegister 0x02 0x11 0xA1, []) := by
  decide

theorem test_decode_f2_register :
    decode cfgT [0x02, 0x60, 0x11, 0xA1] = .ok (.f2RegisterConstant8 0x02 0x11 0xA1, []) ∧
    decode cfgT [0x02, 0x61, 0x11, 0xA1, 0xB2] = .ok (.f2RegisterConstant16 0x02 0x11 0xB2A1, []) ∧
    decode cfgT [0x02, 0x62, 0x11, 0xA1, 0xB2, 0xC3, 0xD4] = .ok (.f2RegisterConstant32 0x02 0x11 0xD4C3B2A1, []) ∧
    decode cfgT [0x02, 0x63, 0x11, 0xA1, 0xB2, 0xC3, 0xD4] = .ok (.f2RegisterAbsoluteAddress 0x02 0x11 0xD4C3B2A1, []) ∧
    decode cfgT [0x02, 0x64, 0x11, 0xA1, 0xB2, 0xC3, 0xD4] = .ok (.f2RegisterRelativeAddress 0x02 0x11 0xD4C3B2A1, []) ∧
    decode cfgT [0x02, 0x65, 0x11, 0xA1] = .ok (.f2RegisterRegisterAddress 0x02 0x11 0xA1, []) ∧
    decode cfgT [0x02, 0x66, 0x11, 0xA1] = .ok (.f2RegisterRegister 0x02 0x11 0xA1, []) := by
  decide

/-- The refusals of 95_test_vectors.md section 2.7. -/
theorem test_decode_refusals :
    decode cfgT [] = .error ⟨.truncated, .whole⟩ ∧ decode cfgT [0x01] = .error ⟨.truncated, .whole⟩ ∧
    decode cfgT [0x01, 0x60] = .error ⟨.truncated, .whole⟩ ∧ decode cfgT [0x01, 0x70] = .error ⟨.unresolvedLabel, .p1⟩ ∧
    decode cfgT [0x01, 0xF0] = .error ⟨.unknownMode, .p1⟩ ∧ decode cfgT [0x01, 0x61] = .error ⟨.absentModeNonzero, .p2⟩ ∧
    decode cfgT [0x02, 0x67, 0x05] = .error ⟨.unresolvedLabel, .p2⟩ ∧
    decode cfgT [0x02, 0xF7] = .error ⟨.unknownMode, .p1⟩ ∧ decode cfgT [0xFF] = .error ⟨.undefinedOpcode, .whole⟩ := by
  decide

/-- Words of the opcode table: the mode byte alone (the table's bits 7..0), and whole encodings. -/
theorem test_decodeTableWord :
    decodeTableWord 8 0x00 = some (.f0 0) ∧ decodeTableWord 8 0x60 = some (.f1Register 0 0) ∧
    decodeTableWord 8 0x61 = some (.f2RegisterConstant16 0 0 0) ∧
    decodeTableWord 24 0x056041 = some (.f1Register 0x41 5) ∧
    decodeTableWord 40 0x1234016142 = some (.f2RegisterConstant16 0x42 1 0x1234) := by
  decide

/-! ### WellFormed: an ill-formed term for each check -/

theorem test_wellFormed_accepts : Instr.WellFormed cfgT (.f2RegisterConstant16 0x02 0xFF 0xFFFF) = true := by decide

theorem test_wellFormed_refuses_undefined_opcode : Instr.WellFormed cfgT (.f0 0xFF) = false := by decide

theorem test_wellFormed_refuses_wrong_count : Instr.WellFormed cfgT (.f1Register 0x02 0) = false := by decide

theorem test_wellFormed_refuses_wide_p1 : Instr.WellFormed cfgT (.f1Constant8 0x01 0x100) = false := by decide

theorem test_wellFormed_refuses_wide_p2 : Instr.WellFormed cfgT (.f2RegisterConstant16 0x02 0 0x10000) = false := by
  decide

/-! ### The operations, on vectors of 95_test_vectors.md -/

/-- Section 2.1, with its corner case `P_LABEL_ORDINAL = 9`. -/
theorem test_width :
    width cfgT 1 = ⟨true, 2⟩ ∧ width cfgT 6 = ⟨true, 1⟩ ∧ width cfgT 7 = ⟨true, 4⟩ ∧ width cfgT 8 = ⟨false, 0⟩ ∧
    width cfgT 15 = ⟨false, 0⟩ ∧ width { cfgT with labelOffset := 2 } 7 = ⟨false, 0⟩ ∧
    width { cfgT with labelOffset := 2 } 9 = ⟨true, 4⟩ := by
  decide

/-- Section 2.2. -/
theorem test_penc :
    penc 0 0x89ABCDEF = ⟨1, #v[0xEF, 0, 0, 0]⟩ ∧ penc 1 0x00012345 = ⟨2, #v[0x45, 0x23, 0, 0]⟩ ∧
    penc 4 0x80000000 = ⟨4, #v[0, 0, 0, 0x80]⟩ ∧ penc 5 300 = ⟨1, #v[0x2C, 0, 0, 0]⟩ ∧
    penc 7 0x40 = ⟨0, #v[0, 0, 0, 0]⟩ ∧ penc 15 0x40 = ⟨0, #v[0, 0, 0, 0]⟩ := by
  decide

/-- Section 2.3. -/
theorem test_pdec :
    pdec 0 #v[0x80, 9, 9, 9] = ⟨true, 0x80⟩ ∧ pdec 1 #v[0xFF, 0xFF, 9, 9] = ⟨true, 0xFFFF⟩ ∧
    pdec 2 #v[1, 2, 3, 4] = ⟨true, 0x04030201⟩ ∧ s32 (pdec 4 #v[0xFB, 0xFF, 0xFF, 0xFF]).value = -5 ∧
    pdec 7 #v[1, 2, 3, 4] = ⟨false, 0⟩ := by
  decide

/-- Section 2.4: one input of each clause, V1 to V7 and the accepted ones beside them. -/
theorem test_validate :
    validate cfgT 0xFF 9 9 true = ⟨.undefinedOpcode, .whole⟩ ∧ validate cfgT 0x00 0 0 true = ⟨.ok, .whole⟩ ∧
    validate cfgT 0x00 9 0 true = ⟨.absentModeNonzero, .p1⟩ ∧ validate cfgT 0x00 0 6 true = ⟨.absentModeNonzero, .p2⟩ ∧
    validate cfgT 0x01 2 0 true = ⟨.ok, .whole⟩ ∧ validate cfgT 0x01 9 5 true = ⟨.unknownMode, .p1⟩ ∧
    validate cfgT 0x01 2 5 true = ⟨.absentModeNonzero, .p2⟩ ∧ validate cfgT 0x01 7 0 false = ⟨.ok, .whole⟩ ∧
    validate cfgT 0x01 7 0 true = ⟨.unresolvedLabel, .p1⟩ ∧ validate cfgT 0x02 6 1 true = ⟨.ok, .whole⟩ ∧
    validate cfgT 0x02 9 9 true = ⟨.unknownMode, .p1⟩ ∧ validate cfgT 0x02 7 9 true = ⟨.unknownMode, .p2⟩ ∧
    validate cfgT 0x02 7 7 true = ⟨.unresolvedLabel, .p1⟩ ∧ validate cfgT 0x02 1 7 true = ⟨.unresolvedLabel, .p2⟩ := by
  decide

/-- Section 2.5. -/
theorem test_len :
    len cfgT 0x00 0 0 = ⟨.ok, .whole, 1⟩ ∧ len cfgT 0x01 2 0 = ⟨.ok, .whole, 6⟩ ∧ len cfgT 0x02 6 1 = ⟨.ok, .whole, 5⟩ ∧
    len cfgT 0x02 7 7 = ⟨.ok, .whole, 10⟩ ∧ len cfgT 0x01 9 0 = ⟨.unknownMode, .p1, 0⟩ ∧
    len cfgT 0xFF 0 0 = ⟨.undefinedOpcode, .whole, 0⟩ := by
  decide

/-- Section 2.6: SV5 encoded, one byte short, a label, and the legacy gate. -/
theorem test_ienc :
    ienc cfgT (ins 0x02 6 1 1 0x1234) 10 =
      ⟨.ok, .whole, 5, #v[0x02, 0x61, 0x01, 0x34, 0x12, 0, 0, 0, 0, 0],
        #v[true, true, true, true, true, false, false, false, false, false]⟩ ∧
    (ienc cfgT (ins 0x02 2 0x01020304 3 0xA0B0C0D0) 9).status = .capacity ∧
    (ienc cfgT (ins 0x01 7 0 0 0) 10).status = .unresolvedLabel ∧ (ienc cfgT (ins 0x01 7 0 0 0) 10).len = 6 ∧
    (ienc cfgGate (ins 0x02 0 7 6 3) 10).we =
      #v[true, false, true, true, false, false, false, false, false, false] := by
  decide

/-- Section 2.7. -/
theorem test_idec :
    idec cfgT winP1 5 = okOut 0x02 2 6 1 1 0x1234 5 ∧ idec cfgT winP1 4 = idecError .truncated .whole ∧
    idec cfgT #v[0x00, 0x61, 0, 0, 0, 0, 0, 0, 0, 0] 2 = okOut 0 0 0 0 0 0 1 ∧
    idec cfgT #v[0x01, 0x40, 0xF6, 0xFF, 0xFF, 0xFF, 0x99, 0, 0, 0] 10 = okOut 0x01 1 4 0xFFFFFFF6 0 0 6 ∧
    idec cfgT #v[0xFF, 0, 0, 0, 0, 0, 0, 0, 0, 0] 10 = idecError .undefinedOpcode .whole := by
  decide

/-- Section 2.8; the braces are written by their code points. -/
theorem test_pfmt :
    pfmt cfgT ⟨0, 0x1FF⟩ = "0x1ffu8".toList ∧ pfmt cfgT ⟨1, 0x1234⟩ = "0x1234u16".toList ∧
    pfmt cfgT ⟨2, 0xDEADBEEF⟩ = "0xdeadbeefu32".toList ∧ pfmt cfgT ⟨3, 0x110⟩ = "#110".toList ∧
    pfmt cfgT ⟨4, 0xFFFFFFFB⟩ = "$-5".toList ∧ pfmt cfgT ⟨4, 0⟩ = "$0".toList ∧
    pfmt cfgT ⟨4, 0x7FFFFFFF⟩ = "$7fffffff".toList ∧ pfmt cfgT ⟨4, 0x80000000⟩ = "$-80000000".toList ∧
    pfmt cfgT ⟨6, 1⟩ = "r1".toList ∧
    pfmt cfgT ⟨5, 300⟩ = '@' :: Char.ofNat 123 :: ("0x12c".toList ++ [Char.ofNat 125]) ∧
    pfmt cfgT ⟨9, 0x2A⟩ = Char.ofNat 123 :: ("0x2a".toList ++ [Char.ofNat 125]) := by
  decide

/-- Section 2.8. -/
theorem test_ifmt :
    ifmt cfgT (ins 0x00 6 1 1 2) = "t0\n".toList ∧ ifmt cfgT (ins 0x02 6 1 1 0x1234) = "t2 r1 0x1234u16\n".toList ∧
    ifmt cfgT (ins 0x41 4 0xFFFFFFF6 0 0) = "t1b $-a\n".toList ∧
    ifmt cfgT (ins 0x42 0 0 0 0) = Char.ofNat 123 :: ("0x42".toList ++ [Char.ofNat 125, '\n']) ∧
    ifmt cfgT (ins 0xFF 0 0 0 0) = Char.ofNat 123 :: ("0xff".toList ++ [Char.ofNat 125, '\n']) := by
  decide

/-! ### One step -/

/-- P1, DecodeSeq at offset 0: the first entry of the listing. -/
theorem test_step_decodes :
    step (small (.decoding 0 5 []) [] memP1) =
      .next (small (.decoding 5 5 [⟨0, okOut 0x02 2 6 1 1 0x1234 5⟩]) [] memP1) := by
  rfl

/-- P1, EncodeSeq's first instruction: its bytes stand at the cursor. -/
theorem test_step_encodes :
    step (small (.encoding [ins 0x02 6 1 1 0x1234] 16 0 1) [] []) = .next (small (.encoding [] 16 5 2) [] memP1) := by
  rfl

/-- P3 case (a): no room for the second instruction. -/
theorem test_step_stops_on_capacity :
    step (small (.encoding [ins 0x01 2 0xDEADBEEF 0 0] 8 5 2) [] memP1) =
      .next { small .idle [] memP1 with replies := [.encodeFailed 2 .capacity .whole 5] } := by
  rfl

/-- P3 case (b): a non-zero absent nibble. -/
theorem test_step_stops_on_absent_nibble :
    step (small (.decoding 0 3 []) [] [(0, 0x01), (1, 0x27), (2, 0x05)]) =
      .next { small .idle [] [(0, 0x01), (1, 0x27), (2, 0x05)] with
        replies := [.decodeFailed 0 .absentModeNonzero .p2 []] } := by
  rfl

/-- P4, gate on: byte 1 keeps the destination's AA. -/
theorem test_step_legacy_gate :
    exec (.f2Constant8Register 0x02 7 3) { small (.encoding [] 4 0 1) [] [(1, 0xAA)] with config := cfgGate } =
      .next { small (.encoding [] 4 4 2) [] [(0, 0x02), (1, 0xAA), (2, 0x07), (3, 0x03)] with config := cfgGate } := by
  rfl

/-- Values are truncated in both directions (R78): register 0x1FF. -/
theorem test_exec_truncates :
    exec (.f1Register 0x01 0x1FF) (small .idle [] []) =
      .next { small .idle [] [] with replies := [.idec (okOut 0x01 1 6 0xFF 0 0 3)] } := by
  rfl

/-- The word that withFetchWord places is the first instruction a step runs after reset. -/
theorem test_withFetchWord :
    step (State.reset.withFetchWord 8 0x61) =
      exec (.f2RegisterConstant16 0 0 0) (State.reset.withFetchWord 8 0x61) := by
  rfl

/-- A commit past the buffer stops by name. -/
theorem test_stops :
    step (small .idle [.iencCommit (ins 0x02 6 1 1 0x1234) 10 28] []) = .refused .commitOutsideBuffer :=
  rfl

/-- IDEC of the image with no byte presented is TRUNCATED, past the buffer's end too (R144 D1). -/
theorem test_idecAt_none_presented :
    step (small .idle [.idecAt 40 0] []) =
      .next { small .idle [] [] with replies := [.idec (idecError .truncated .whole)] } :=
  rfl

/-- A count-0 opcode in the last byte of the buffer decodes though the window passes the end: D3 and D5 ask for no more. -/
theorem test_decode_at_the_buffers_end :
    step (small (.decoding 31 40 []) [] []) =
      .next { small (.decoding 32 40 [⟨31, okOut 0x00 0 0 0 0 0 1⟩]) [] [] with draws := 9 } :=
  rfl

/-! ### Witnesses: concrete values that meet the hypotheses of each statement -/

theorem witness_WidthTable : NoWidth cfgT 8 ∧ NoWidth cfgT 15 ∧ NoWidth { cfgT with labelOffset := 1 } 7 := by
  unfold NoWidth
  decide

theorem witness_PencTable_PdecTable : (7 : BitVec 4).toNat = 7 ∧ 7 ≤ (15 : BitVec 4).toNat := by decide

theorem witness_ParameterRoundTrip :
    (0 : Fin 4).val < ConcreteMode.register.width ∧ (1 : Fin 4).val < ConcreteMode.constant16.width ∧
    (3 : Fin 4).val < ConcreteMode.relativeAddress.width := by
  decide

theorem witness_ValidateReportsFirstFailure :
    cfgT.declared 0xFF = none ∧ cfgT.declared 0x00 = some .zero ∧ cfgT.declared 0x01 = some .one ∧
    cfgT.declared 0x02 = some .two ∧ cfgT.labelOrdinal = 7 ∧ NoWidth cfgT 9 ∧ ¬ NoWidth cfgT 6 ∧ ¬ NoWidth cfgT 7 := by
  unfold NoWidth
  decide

theorem witness_LenIsTheSumOfWidths :
    (len cfgT 0x00 0 0).status = .ok ∧ (len cfgT 0x01 7 0).status = .ok ∧ (len cfgT 0x02 2 4).status = .ok ∧
    (len cfgT 0x01 9 0).status ≠ .ok := by
  decide

/-- P2's label, resolved to absolute_address. -/
theorem witness_ResolvedLabelsKeepOffsets :
    resolvedForm cfgT (ins 0x01 7 0 0 0) (ins 0x01 3 0x110 0 0) = true ∧
    resolvedForm cfgT (ins 0x02 6 1 7 0) (ins 0x02 6 1 4 9) = true ∧ (len cfgT 0x01 7 0).status = .ok := by
  decide

theorem witness_IencErrorWritesNothing :
    (ienc cfgT (ins 0x01 12 0 0 0) 10).status ≠ .ok ∧ (ienc cfgT (ins 0x00 0 0 0 0) 0).status ≠ .ok := by
  decide

theorem witness_IencStatusOrder :
    (validate cfgT 0x01 7 0 true).status ≠ .ok ∧ (validate cfgT 0x02 2 3 true).status = .ok ∧
    (9 : BitVec 4).toNat < (ienc cfgT (ins 0x02 2 0 3 0) 9).len.toNat ∧
    (ienc cfgT (ins 0x02 2 0 3 0) 10).len.toNat ≤ (10 : BitVec 4).toNat := by
  decide

theorem witness_IencWritesTheRowEncoding :
    Instr.countOk cfgT (.f2Constant32Constant32 0x02 1 2) = true ∧ cfgT.legacyModeGate = false ∧
    (encode (.f2Constant32Constant32 0x02 1 2)).length ≤ (10 : BitVec 4).toNat := by
  decide

theorem witness_LengthAgreement :
    (ienc cfgT (ins 0x02 6 1 1 0x1234) 5).status = .ok ∧ (ienc cfgGate (ins 0x02 0 7 6 3) 4).status = .ok := by
  decide

/-- The gate's last clause: byte 1 would be enabled, p1 is constant8, and the commit takes place. -/
theorem witness_LegacyGateDropsByteOneOnly :
    (ienc { cfgT with legacyModeGate := false } (ins 0x02 0 7 6 3) 10).we[1] = true ∧ (ins 0x02 0 7 6 3).p1.mode = 0 ∧
    ((small .idle [] []).commit 28 (ienc { cfgT with legacyModeGate := true } (ins 0x02 0 7 6 3) 10)).isSome = true := by
  decide

theorem witness_EncodeThenDecode :
    (small .idle [] []).mem.wf ∧ (ienc cfgT (ins 0x02 6 1 1 0x1234) 10).status = .ok ∧
    (small .idle [] []).commit 0 (ienc cfgT (ins 0x02 6 1 1 0x1234) 10) = some (small .idle [] memP1) ∧
    cfgT.legacyModeGate = false ∧ Shows memP1 0 5 winP1 := by
  refine ⟨by decide, by decide, by decide, by decide, ?_⟩
  unfold Shows
  decide

theorem witness_DecodeThenEncode :
    (idec cfgT winP1 5).status = .ok ∧ cfgT.legacyModeGate = false ∧
    (idec cfgT winP1 5).len.toNat ≤ (5 : BitVec 4).toNat ∧
    idec cfgT #v[0x02, 0x61, 0x01, 0x34, 0x12, 7, 0, 0, 0, 0] 9 = idec cfgT winP1 5 := by
  decide

theorem witness_IdecErrorZeroesOutputs : (idec cfgT winP1 4).status ≠ .ok := by decide

/-- IdecCheckOrder: no byte, one byte, a refused mode byte, one byte short, enough. -/
theorem witness_IdecCheckOrder :
    cfgT.declared winP1[0] = some .two ∧ (validate cfgT winP1[0] (hiNibble winP1[1]) (loNibble winP1[1]) true).status = .ok ∧
    (4 : BitVec 4).toNat < (len cfgT winP1[0] (hiNibble winP1[1]) (loNibble winP1[1])).len.toNat ∧
    (len cfgT winP1[0] (hiNibble winP1[1]) (loNibble winP1[1])).len.toNat ≤ (5 : BitVec 4).toNat ∧
    (validate cfgT 0x02 15 7 true).status ≠ .ok ∧ cfgT.declared 0xFF = none ∧ cfgT.declared 0x00 = some .zero := by
  decide

theorem witness_DecodeOfEncode :
    Instr.WellFormed cfgT (.f0 0x42) = true ∧ Instr.WellFormed cfgT (.f1Constant8 0x41 0xFF) = true ∧
    Instr.WellFormed cfgT (.f2Constant16RelativeAddress 0x02 0xFFFF 0xFFFFFFFF) = true := by
  decide

theorem witness_EncodeOfDecode : decode cfgT [0x02, 0x61, 0x01, 0x34, 0x12, 0x99] = .ok (.f2RegisterConstant16 0x02 1 0x1234, [0x99]) := by
  decide

/-- DecodesAs: a state in each of the two procedures. -/
theorem witness_Decodes :
    (small (.decoding 0 5 []) [] memP1).phase = .decoding 0 5 [] ∧ (small .idle [] []).phase = .idle := by
  decide

/-- EncodesAs: a state with room for the longest row, under both gates, and the mode byte left alone. -/
theorem witness_Encodes :
    (small (.encoding [] 32 22 1) [] []).phase = .encoding [] 32 22 1 ∧ cfgT.declared 0x00 = some .zero ∧
    cfgT.declared 0x01 = some .one ∧ cfgT.declared 0x02 = some .two ∧ (small (.encoding [] 32 22 1) [] []).mem.wf ∧
    22 + 10 ≤ (small (.encoding [] 32 22 1) [] []).bufSize ∧
    LeftAlone { small (.encoding [] 32 22 1) [] [] with config := cfgGate } [0x02, 0x06, 0x07, 0x03] 1 ∧
    ¬ LeftAlone (small (.encoding [] 32 22 1) [] []) [0x02, 0x06, 0x07, 0x03] 1 := by
  unfold LeftAlone
  decide

theorem witness_EncodeStopsWithoutRoom :
    (small (.encoding [] 8 5 2) [] []).phase = .encoding [] 8 5 2 ∧ Instr.countOk cfgT (.f1Constant32 0x01 0) = true ∧
    8 < 5 + (Instr.f1Constant32 0x01 0).view.format.length := by
  decide

theorem witness_EncodePastBufferIsRefused :
    (small (.encoding [] 40 30 1) [] []).phase = .encoding [] 40 30 1 ∧ Instr.countOk cfgT (.f1Constant8 0x01 0) = true ∧
    30 + (Instr.f1Constant8 0x01 0).view.format.length ≤ 40 ∧
    (small (.encoding [] 40 30 1) [] []).bufSize < 30 + (Instr.f1Constant8 0x01 0).view.format.length := by
  decide

theorem witness_HonestCapStaysInBuffer :
    22 + (10 : BitVec 4).toNat ≤ 32 ∧ (ienc cfgT (ins 0x00 0 0 0 0) 10).we[0] = true ∧ (small .idle [] []).bufSize ≤ 32 + 0 := by
  decide

/-- StepRunsDecodedInstruction where the window passes the buffer's end: the free bytes come after the instruction. -/
theorem witness_StepRunsDecodedInstruction_past_the_buffer :
    (small (.decoding 31 40 []) [] []).phase = .decoding 31 40 [] ∧
    (decode cfgT ((small (.decoding 31 40 []) [] []).land.window 31 (min 10 (40 - 31)))).map Prod.fst = .ok (.f0 0x00) ∧
    (small (.decoding 31 40 []) [] []).bufSize < 31 + min 10 (40 - 31) :=
  ⟨rfl, rfl, by decide⟩

theorem witness_StepRunsDecodedInstruction :
    (small (.decoding 0 5 []) [] memP1).phase = .decoding 0 5 [] ∧
    (small (.decoding 0 5 []) [] memP1).land.window 0 (min 10 (5 - 0)) = [0x02, 0x61, 0x01, 0x34, 0x12] ∧
    decode cfgT [0x02, 0x61, 0x01, 0x34, 0x12] = .ok (.f2RegisterConstant16 0x02 1 0x1234, []) ∧
    0 + min 10 (5 - 0) ≤ (small (.decoding 0 5 []) [] memP1).bufSize ∧
    (small (.decoding 0 5 []) [] memP1).inflight = [] := by
  decide

/-- DecodeSeqFollowsIdec: at the end, past the buffer, and inside it. -/
theorem witness_DecodeSeqFollowsIdec :
    (small (.decoding 5 5 []) [] memP1).phase = .decoding 5 5 [] ∧
    (small (.decoding 30 33 []) [] []).phase = .decoding 30 33 [] ∧ 30 < 33 ∧
    (small (.decoding 30 33 []) [] []).bufSize < 30 + min 10 (33 - 30) ∧
    0 + min 10 (5 - 0) ≤ (small (.decoding 0 5 []) [] memP1).bufSize ∧
    Shows (small (.decoding 0 5 []) [] memP1).land.mem 0 (min 10 (5 - 0)) winP1 := by
  unfold Shows
  decide

/-- EncodeSeqFollowsIenc: the call, the end, a refused value, a committed one and one past the buffer. -/
theorem witness_EncodeSeqFollowsIenc :
    (small .idle [.encodeSeq [ins 0x00 0 0 0 0] 0 4] []).calls = [.encodeSeq [ins 0x00 0 0 0 0] 0 4] ∧
    (small (.encoding [] 4 1 2) [] []).phase = .encoding [] 4 1 2 ∧
    (ienc cfgT (ins 0x01 7 0 0 0) 4).status ≠ .ok ∧ (ienc cfgT (ins 0x00 0 0 0 0) 4).status = .ok ∧
    ((small (.encoding [] 4 1 2) [] []).land.commit 1 (ienc cfgT (ins 0x00 0 0 0 0) 4)).isSome = true ∧
    (small (.encoding [] 40 32 2) [] []).land.commit 32 (ienc cfgT (ins 0x00 0 0 0 0) 4) = none := by
  decide

theorem witness_DecodeSeqEnds_EncodeSeqEnds :
    (small (.decoding 5 32 []) [] []).phase = .decoding 5 32 [] ∧ 5 ≤ 32 ∧
    (small (.decoding 30 60 []) [] []).phase = .decoding 30 60 [] ∧ 30 ≤ 60 ∧ 32 ≤ (small (.decoding 5 32 []) [] []).bufSize ∧
    (small (.encoding [ins 0x00 0 0 0 0] 32 5 1) [] []).phase = .encoding [ins 0x00 0 0 0 0] 32 5 1 := by
  decide

/-- P1's three instructions. -/
def p1Instrs : List Instr := [.f2RegisterConstant16 0x02 1 0x1234, .f1Constant32 0x01 0xDEADBEEF, .f0 0x00]

theorem witness_EncodeSeqThenDecodeSeqListsThem :
    let s := small .idle [.encodeSeq (p1Instrs.map Instr.toInstruction) 0 16, .decodeSeq 0 (0 + totalLength p1Instrs)] []
    s.phase = .idle ∧ s.inflight = [] ∧ s.mem.wf ∧ s.config.legacyModeGate = false ∧
    (∀ i ∈ p1Instrs, i.WellFormed s.config = true) ∧ totalLength p1Instrs ≤ 16 ∧ 0 + 16 ≤ s.bufSize ∧
    s.calls = [.encodeSeq (p1Instrs.map Instr.toInstruction) 0 16, .decodeSeq 0 (0 + totalLength p1Instrs)] := by
  decide

theorem witness_PureCallsAnswer :
    (small .idle [.width 3, .penc 1 2] []).phase = .idle ∧ (small .idle [.width 3, .penc 1 2] []).calls = .width 3 :: [.penc 1 2] ∧
    (small .idle [.pdec 1 #v[1, 2, 3, 4]] []).calls = .pdec 1 #v[1, 2, 3, 4] :: [] ∧
    (small .idle [.validate 1 2 0 true] []).calls = .validate 1 2 0 true :: [] ∧
    (small .idle [.len 1 2 0] []).calls = .len 1 2 0 :: [] ∧ (small .idle [.pfmt ⟨6, 1⟩] []).calls = .pfmt ⟨6, 1⟩ :: [] ∧
    (small .idle [.ienc (ins 1 2 0 0 0) 9] []).calls = .ienc (ins 1 2 0 0 0) 9 :: [] ∧
    (small .idle [.ifmt (ins 1 2 0 0 0)] []).calls = .ifmt (ins 1 2 0 0 0) :: [] := by
  decide

theorem witness_IdecCallsAnswerIdec :
    (small .idle [.idec winP1 5] []).calls = .idec winP1 5 :: [] ∧ (small .idle [.idecAt 0 5] memP1).calls = .idecAt 0 5 :: [] ∧
    0 + min 10 (5 : BitVec 4).toNat ≤ 32 ∧ Shows (small .idle [.idecAt 0 5] memP1).land.mem 0 (min 10 (5 : BitVec 4).toNat) winP1 ∧
    (small .idle [.idecAt 40 0] []).calls = .idecAt 40 0 :: [] ∧ (small .idle [.idecAt 28 5] []).calls = .idecAt 28 5 :: [] ∧
    (small .idle [.idecAt 28 5] []).bufSize < 28 + min 10 (5 : BitVec 4).toNat := by
  unfold Shows
  decide

theorem witness_CommitWritesEnabledBytes :
    (small .idle [] []).mem.wf ∧
    (small .idle [] []).commit 0 (ienc cfgT (ins 0x02 6 1 1 0x1234) 5) = some (small .idle [] memP1) ∧
    (enabledWrites 0 (ienc cfgT (ins 0x02 6 1 1 0x1234) 5)).reverse.Perm
      (enabledWrites 0 (ienc cfgT (ins 0x02 6 1 1 0x1234) 5)) :=
  ⟨by decide, by decide, List.reverse_perm _⟩

theorem witness_CommitCallCompletes :
    (small .idle [.iencCommit (ins 0x02 6 1 1 0x1234) 10 22] []).calls = .iencCommit (ins 0x02 6 1 1 0x1234) 10 22 :: [] ∧
    22 + (10 : BitVec 4).toNat ≤ (small .idle [] []).bufSize ∧
    (ienc cfgT (ins 0x02 6 1 1 0x1234) 10).we[4] = true ∧ (small .idle [] []).bufSize ≤ 28 + 4 := by
  decide

theorem witness_DisjointCommitsCommute :
    let r := ienc cfgT (ins 0x00 0 0 0 0) 10
    let r' := ienc cfgT (ins 0x01 6 5 0 0) 10
    (small .idle [] []).mem.wf ∧
    (∀ k k' : Fin 10, r.we[k] = true → r'.we[k'] = true → 0 + k.val ≠ 1 + k'.val) ∧
    (small .idle [] []).commit 0 r = some (small .idle [] []) ∧
    (small .idle [] []).commit 1 r' = some (small .idle [] [(1, 0x01), (2, 0x60), (3, 0x05)]) := by
  decide

theorem witness_RacingBytesAreWrittenValues :
    ({ small .idle [] memP1 with inflight := [(0, 7), (0, 9)] } : Machine.State).mem.wf ∧
    ((0, 7) : Host.Cell) ∈ ({ small .idle [] memP1 with inflight := [(0, 7), (0, 9)] } : Machine.State).inflight := by
  decide

theorem witness_OtherCommitGoesInFlight :
    (small .idle [.otherCommit (ins 0x01 6 5 0 0) 10 22] []).calls = .otherCommit (ins 0x01 6 5 0 0) 10 22 :: [] ∧
    22 + (10 : BitVec 4).toNat ≤ (small .idle [] []).bufSize := by
  decide

/-- HexSpellsTheNumber at both ends of its range. -/
theorem witness_HexSpellsTheNumber :
    hex 0 = ['0'] ∧ hex 0xFFFFFFFF = "ffffffff".toList ∧ 0xFFFFFFFF < 2 ^ 32 ∧ hexValue (hex 0xDEADBEEF) = 0xDEADBEEF := by
  decide

theorem witness_PfmtForms :
    (0x7FFFFFFF : BitVec 32).toNat < 2 ^ 31 ∧ 2 ^ 31 ≤ (0x80000000 : BitVec 32).toNat ∧
    cfgT.regName.lookup 1 = some ['r', '1'] ∧ cfgT.regName.lookup 99 = none := by
  decide

theorem witness_IfmtForms :
    cfgT.declared 0xFF = none ∧ cfgT.declared 0x42 = some .zero ∧ cfgT.declared 0x41 = some .one ∧
    cfgT.declared 0x02 = some .two := by
  decide

/-- StepKeepsInvariant, ConfigurationNeverChanges, HonestStepsComplete: a state that meets them and steps. -/
theorem witness_StepKeepsInvariant_HonestStepsComplete :
    (small (.decoding 0 5 []) [] memP1).Inv ∧ (small (.decoding 0 5 []) [] memP1).Honest ∧
    (small .idle [.iencCommit (ins 0x00 0 0 0 0) 10 22] []).Honest ∧ (small (.decoding 0 5 []) [] memP1).Safe := by
  refine ⟨?_, ⟨trivial, ?_⟩, ⟨trivial, ?_⟩, ⟨_, test_step_decodes⟩⟩
  · unfold State.Inv
    decide
  · intro k hk
    cases hk
  · intro k hk
    rw [List.mem_singleton.1 hk]
    show 22 + 10 ≤ 32
    decide

theorem witness_IdleStepOnlyLands : (small .idle [] memP1).phase = .idle ∧ (small .idle [] memP1).calls = [] ∧
    (small .idle [] memP1).inflight = [] := by
  decide

end Sys2Proof.Tests
end

section
/-! The configuration of the reset state (00_scope.md R5). -/

namespace Sys2Proof

/-- An empty `P_PCOUNT` defines no opcode byte (R5, R55). -/
theorem Config.declared_of_pCount_nil {c : Config} (h : c.pCount = []) (o : BitVec 8) : c.declared o = none := by
  rw [Config.declared, h, List.lookup_nil]

/-- With no offset the label ordinal is the spec's default (R5, R62). -/
theorem Config.labelOrdinal_of_labelOffset_zero {c : Config} (h : c.labelOffset = 0) : c.labelOrdinal = 7 := by
  rw [Config.labelOrdinal, h]
  rfl

namespace Machine

@[simp] theorem State.reset_config_pCount : State.reset.config.pCount = [] := rfl
@[simp] theorem State.reset_config_labelOffset : State.reset.config.labelOffset = 0 := rfl
@[simp] theorem State.reset_config_legacyModeGate : State.reset.config.legacyModeGate = false := rfl

@[simp] theorem State.reset_config_labelOrdinal : State.reset.config.labelOrdinal = 7 :=
  Config.labelOrdinal_of_labelOffset_zero State.reset_config_labelOffset

@[simp] theorem State.reset_config_declared (o : BitVec 8) : State.reset.config.declared o = none :=
  Config.declared_of_pCount_nil State.reset_config_pCount o

/-- Settles O54, field by field from the laws of the reset state; that no opcode is defined comes from the empty `P_PCOUNT`. -/
theorem resetConfigurationDefaults : Obligations.ResetConfigurationDefaults :=
  ⟨State.reset_config_labelOrdinal, State.reset_config_legacyModeGate, State.reset_phase, State.reset_config_declared⟩

end Machine

end Sys2Proof
end

section
/-! Earlier replies (10_state.md R24, R26): every operation commutes with putting replies before those of the state. -/

namespace Sys2Proof.Machine

/-- The state in which the given outputs were returned before the state's own. -/
def State.withEarlier (s : State) (old : List Reply) : State := { s with replies := old ++ s.replies }

/-- An outcome with a change made to its next state, if it has one. -/
def mapNext (f : State → State) : Host.Outcome State Fault Refusal → Host.Outcome State Fault Refusal
  | .next t => .next (f t)
  | .fault r => .fault r
  | .refused r => .refused r

@[simp] theorem mapNext_next (f : State → State) (t : State) : mapNext f (.next t) = .next (f t) := rfl
@[simp] theorem mapNext_refused (f : State → State) (r : Refusal) : mapNext f (.refused r) = .refused r := rfl

/-! ### The state's own accessors and updates -/

@[simp] theorem State.withEarlier_config (s : State) (old : List Reply) : (s.withEarlier old).config = s.config := rfl
@[simp] theorem State.withEarlier_bufSize (s : State) (old : List Reply) : (s.withEarlier old).bufSize = s.bufSize := rfl
@[simp] theorem State.withEarlier_phase (s : State) (old : List Reply) : (s.withEarlier old).phase = s.phase := rfl
@[simp] theorem State.withEarlier_calls (s : State) (old : List Reply) : (s.withEarlier old).calls = s.calls := rfl
@[simp] theorem State.withEarlier_inflight (s : State) (old : List Reply) : (s.withEarlier old).inflight = s.inflight := rfl
@[simp] theorem State.withEarlier_draws (s : State) (old : List Reply) : (s.withEarlier old).draws = s.draws := rfl

@[simp] theorem State.withEarlier_mem (s : State) (old : List Reply) : (s.withEarlier old).mem = s.mem := rfl

@[simp] theorem State.withMem_withEarlier (s : State) (old : List Reply) (m : Memory) :
    (s.withEarlier old).withMem m = (s.withMem m).withEarlier old := rfl

@[simp] theorem State.withPhase_withEarlier (s : State) (old : List Reply) (p : Phase) :
    (s.withEarlier old).withPhase p = (s.withPhase p).withEarlier old := rfl

@[simp] theorem State.withCalls_withEarlier (s : State) (old : List Reply) (ks : List Call) :
    (s.withEarlier old).withCalls ks = (s.withCalls ks).withEarlier old := rfl

@[simp] theorem State.withInflight_withEarlier (s : State) (old : List Reply) (cells : List Host.Cell) (n : Nat) :
    (s.withEarlier old).withInflight cells n = (s.withInflight cells n).withEarlier old := rfl

@[simp] theorem State.reply_withEarlier (s : State) (old : List Reply) (r : Reply) :
    (s.withEarlier old).reply r = (s.reply r).withEarlier old := by
  simp [State.withEarlier, State.reply]

@[simp] theorem State.finish_withEarlier (s : State) (old : List Reply) (r : Reply) :
    (s.withEarlier old).finish r = (s.finish r).withEarlier old :=
  State.reply_withEarlier (s.withPhase .idle) old r

@[simp] theorem State.land_withEarlier (s : State) (old : List Reply) :
    (s.withEarlier old).land = s.land.withEarlier old := rfl

@[simp] theorem State.window_withEarlier (s : State) (old : List Reply) (a n : Nat) :
    (s.withEarlier old).window a n = s.window a n := rfl

@[simp] theorem State.presented_withEarlier (s : State) (old : List Reply) (a n : Nat) :
    (s.withEarlier old).presented a n = (s.presented a n).withEarlier old := by
  by_cases h : a + n ≤ s.bufSize <;> simp [State.presented, h]

@[simp] theorem State.commit_withEarlier (s : State) (old : List Reply) (d : Nat) (r : IencOut) :
    (s.withEarlier old).commit d r = (s.commit d r).map (·.withEarlier old) := by
  by_cases h : inBuffer s.bufSize (enabledWrites d r) = true <;> simp [State.commit, h]

/-! ### The operations -/

theorem encodeBody_withEarlier (x : Instruction) (p : List Instruction) (e c j : Nat) (s : State) (old : List Reply) :
    encodeBody x p e c j (s.withEarlier old) = mapNext (·.withEarlier old) (encodeBody x p e c j s) := by
  simp only [encodeBody, State.withEarlier_config, State.commit_withEarlier]
  split
  · simp
  · cases s.commit c (ienc s.config x (BitVec.ofNat 4 (min 10 (e - c)))) <;> rfl

theorem handle_withEarlier (f : Format) (o : BitVec 8) (v1 v2 : BitVec 32) (s : State) (old : List Reply) :
    handle f o v1 v2 (s.withEarlier old) = mapNext (·.withEarlier old) (handle f o v1 v2 s) := by
  cases hp : s.phase with
  | idle =>
    rw [handle_idle hp, handle_idle (s := s.withEarlier old) hp, State.reply_withEarlier, mapNext_next]
  | decoding c e l =>
    rw [handle_decoding hp, handle_decoding (s := s.withEarlier old) hp, State.withPhase_withEarlier, mapNext_next]
  | encoding p e c j =>
    rw [handle_encoding hp, handle_encoding (s := s.withEarlier old) hp, encodeBody_withEarlier]

theorem exec_withEarlier (i : Instr) (s : State) (old : List Reply) :
    exec i (s.withEarlier old) = mapNext (·.withEarlier old) (exec i s) := by
  rw [exec_eq_handle, exec_eq_handle, handle_withEarlier]

theorem performIdec_withEarlier (bytes : List Byte) (s : State) (old : List Reply) :
    performIdec bytes (s.withEarlier old) = mapNext (·.withEarlier old) (performIdec bytes s) := by
  unfold performIdec
  rw [State.withEarlier_config]
  cases decode s.config bytes with
  | ok p => exact exec_withEarlier p.1 s old
  | error r => simp

theorem performCommit_withEarlier (x : Instruction) (cap : BitVec 4) (d : Nat) (s : State) (old : List Reply) :
    performCommit x cap d (s.withEarlier old) = mapNext (·.withEarlier old) (performCommit x cap d s) := by
  unfold performCommit
  rw [State.withEarlier_config, State.commit_withEarlier]
  cases s.commit d (ienc s.config x cap) <;> simp

theorem performOtherCommit_withEarlier (x : Instruction) (cap : BitVec 4) (d : Nat) (s : State) (old : List Reply) :
    performOtherCommit x cap d (s.withEarlier old) = mapNext (·.withEarlier old) (performOtherCommit x cap d s) := by
  by_cases h : inBuffer s.bufSize (enabledWrites d (ienc s.config x cap)) = true <;> simp [performOtherCommit, h]

theorem perform_withEarlier (k : Call) (s : State) (old : List Reply) :
    perform k (s.withEarlier old) = mapNext (·.withEarlier old) (perform k s) := by
  cases k with
  | iencCommit x cap d => exact performCommit_withEarlier x cap d s old
  | otherCommit x cap d => exact performOtherCommit_withEarlier x cap d s old
  | idec win avail => exact performIdec_withEarlier _ s old
  | idecAt d avail =>
    simp only [perform, performIdecAt, State.window_withEarlier, State.presented_withEarlier, performIdec_withEarlier]
  | _ => simp [perform]

theorem encodeRound_withEarlier (p : List Instruction) (e c j : Nat) (s : State) (old : List Reply) :
    encodeRound p e c j (s.withEarlier old) = mapNext (·.withEarlier old) (encodeRound p e c j s) := by
  cases p with
  | nil => simp [encodeRound]
  | cons x rest =>
    simp only [encodeRound, State.withEarlier_config]
    cases Instr.ofInstruction s.config x with
    | ok i => exact exec_withEarlier i (s.withPhase (.encoding rest e c j)) old
    | error r => simp

theorem decodeRound_withEarlier (c e : Nat) (l : List Entry) (s : State) (old : List Reply) :
    decodeRound c e l (s.withEarlier old) = mapNext (·.withEarlier old) (decodeRound c e l s) := by
  simp only [decodeRound, State.withEarlier_config, State.window_withEarlier, State.presented_withEarlier]
  split
  · cases decode s.config (s.window c (min 10 (e - c))) with
    | ok p => exact exec_withEarlier p.1 (s.presented c (min 10 (e - c))) old
    | error r => simp
  · simp

theorem operate_withEarlier (s : State) (old : List Reply) :
    operate (s.withEarlier old) = mapNext (·.withEarlier old) (operate s) := by
  cases hp : s.phase with
  | encoding p e c j =>
    rw [operate_encoding hp, operate_encoding (s := s.withEarlier old) hp, encodeRound_withEarlier]
  | decoding c e l =>
    rw [operate_decoding hp, operate_decoding (s := s.withEarlier old) hp, decodeRound_withEarlier]
  | idle =>
    cases hk : s.calls with
    | nil => rw [operate_idle_nil hp hk, operate_idle_nil (s := s.withEarlier old) hp hk, mapNext_next]
    | cons k ks =>
      rw [operate_idle_cons hp hk, operate_idle_cons (s := s.withEarlier old) hp hk, State.withCalls_withEarlier,
        perform_withEarlier]

theorem step_withEarlier (s : State) (old : List Reply) :
    step (s.withEarlier old) = mapNext (·.withEarlier old) (step s) := by
  rw [step, State.land_withEarlier, operate_withEarlier, step]

/-- Settles O58: a state is its reply-free self with its replies put before it, so both runs are the reply-free run with
their own earlier replies put before what it returns. -/
theorem repliesAreNeverRead : Obligations.RepliesAreNeverRead := by
  intro s rs
  have hs : step s = mapNext (·.withEarlier s.replies) (step { s with replies := [] }) := by
    rw [← step_withEarlier]
    simp [State.withEarlier]
  have hrs : step { s with replies := rs } = mapNext (·.withEarlier rs) (step { s with replies := [] }) := by
    rw [← step_withEarlier]
    simp [State.withEarlier]
  rw [hs, hrs]
  cases step { s with replies := [] } with
  | next t => exact ⟨t.replies, rfl, rfl⟩
  | fault r => rfl
  | refused r => rfl

end Sys2Proof.Machine
end

section
/-! What a step is made of: the named updates that lead from a state to the next one. -/

namespace Sys2Proof.Machine

/-- The states that the updates of the model lead to from `s`, each under the condition the operations make it under. -/
inductive Updates (s : State) : State → Prop
  | refl : Updates s s
  | land {t : State} : Updates s t → Updates s t.land
  | present {t : State} (a n : Nat) : Updates s t → Updates s (t.presented a n)
  | phase {t : State} (p : Phase) : Updates s t → Updates s (t.withPhase p)
  | take {t : State} {k : Call} {ks : List Call} : Updates s t → t.calls = k :: ks → Updates s (t.withCalls ks)
  | reply {t : State} (r : Reply) : Updates s t → Updates s (t.reply r)
  | commit {t u : State} {d : Nat} {r : IencOut} : Updates s t → t.commit d r = some u → Updates s u
  | launch {t : State} {cells : List Host.Cell} : Updates s t → inBuffer t.bufSize cells = true →
      Updates s (t.withInflight (t.inflight ++ cells) t.draws)

theorem Updates.finish {s t : State} (h : Updates s t) (r : Reply) : Updates s (t.finish r) :=
  (h.phase .idle).reply r

theorem Updates.exec {s t u : State} {i : Instr} (h : Updates s t) (hu : exec i t = .next u) : Updates s u := by
  rcases exec_next_cases hu with ⟨-, r, rfl⟩ | ⟨c, e, l, r, -, rfl⟩ | ⟨p, e, c, j, -, ⟨r, rfl⟩ | ⟨r, v, hv, rfl⟩⟩
  · exact h.reply r
  · exact h.phase _
  · exact h.finish r
  · exact (h.commit hv).phase _

theorem Updates.performIdec {s t u : State} {bytes : List Byte} (h : Updates s t) (hu : performIdec bytes t = .next u) :
    Updates s u := by
  rcases performIdec_cases bytes t with ⟨i, -, -, hi⟩ | ⟨r, -, hr⟩
  · exact h.exec (hi ▸ hu)
  · obtain rfl := Host.Outcome.next.inj (hr.symm.trans hu)
    exact h.reply _

theorem Updates.performCommit {s t u : State} {x : Instruction} {cap : BitVec 4} {d : Nat} (h : Updates s t)
    (hu : performCommit x cap d t = .next u) : Updates s u := by
  unfold Machine.performCommit at hu
  split at hu
  · cases hu
  · next v hv =>
    obtain rfl := Host.Outcome.next.inj hu
    exact (h.commit hv).reply _

theorem Updates.performOtherCommit {s t u : State} {x : Instruction} {cap : BitVec 4} {d : Nat} (h : Updates s t)
    (hu : performOtherCommit x cap d t = .next u) : Updates s u := by
  unfold Machine.performOtherCommit at hu
  split at hu
  · next hb =>
    obtain rfl := Host.Outcome.next.inj hu
    exact h.launch hb
  · cases hu

theorem Updates.perform {s t u : State} {k : Call} (h : Updates s t) (hu : perform k t = .next u) : Updates s u := by
  cases k with
  | iencCommit x cap d => exact h.performCommit hu
  | otherCommit x cap d => exact h.performOtherCommit hu
  | idec win avail => exact h.performIdec hu
  | idecAt d avail => exact (h.present d _).performIdec hu
  | encodeSeq xs base size => exact Host.Outcome.next.inj hu ▸ h.phase _
  | decodeSeq base limit => exact Host.Outcome.next.inj hu ▸ h.phase _
  | _ => exact Host.Outcome.next.inj hu ▸ h.reply _

theorem Updates.encodeRound {s t u : State} {p : List Instruction} {e c j : Nat} (h : Updates s t)
    (hu : encodeRound p e c j t = .next u) : Updates s u := by
  rcases encodeRound_cases p e c j t with ⟨-, hd⟩ | ⟨x, rest, i, -, -, hi⟩ | ⟨x, rest, r, -, -, hr⟩
  · exact Host.Outcome.next.inj (hd.symm.trans hu) ▸ h.finish _
  · exact (h.phase _).exec (hi ▸ hu)
  · exact Host.Outcome.next.inj (hr.symm.trans hu) ▸ h.finish _

theorem Updates.decodeRound {s t u : State} {c e : Nat} {l : List Entry} (h : Updates s t)
    (hu : decodeRound c e l t = .next u) : Updates s u := by
  rcases decodeRound_cases c e l t with ⟨-, hd⟩ | ⟨i, rest, -, -, hi⟩ | ⟨r, -, -, hr⟩
  · exact Host.Outcome.next.inj (hd.symm.trans hu) ▸ h.finish _
  · exact (h.present c _).exec (hi ▸ hu)
  · exact Host.Outcome.next.inj (hr.symm.trans hu) ▸ (h.present c _).finish _

theorem Updates.operate {s t u : State} (h : Updates s t) (hu : operate t = .next u) : Updates s u := by
  cases hp : t.phase with
  | encoding p e c j => exact h.encodeRound (operate_encoding hp ▸ hu)
  | decoding c e l => exact h.decodeRound (operate_decoding hp ▸ hu)
  | idle =>
    cases hk : t.calls with
    | nil => exact Host.Outcome.next.inj ((operate_idle_nil hp hk).symm.trans hu) ▸ h
    | cons k ks => exact (h.take hk).perform (operate_idle_cons hp hk ▸ hu)

/-- Everything a step can do: it leads to its next state by the named updates alone. -/
theorem step_updates {s t : State} (h : step s = .next t) : Updates s t :=
  Updates.refl.land.operate h

/-- No update of the model writes the configuration or the buffer's size (R25, logs 1 and 5). -/
theorem Updates.keeps_configuration {s t : State} (h : Updates s t) : t.config = s.config ∧ t.bufSize = s.bufSize := by
  induction h with
  | refl => exact ⟨rfl, rfl⟩
  | present a n _ ih => simpa using ih
  | commit _ hu ih =>
    rw [(commit_eq_some hu).2]
    exact ih
  | land _ ih | phase _ _ ih | take _ _ ih | reply _ _ ih | launch _ _ ih => exact ih

/-- Settles O55: a step is made of updates, none of which writes the configuration or the size. -/
theorem configurationNeverChanges : Obligations.ConfigurationNeverChanges :=
  fun _ _ h => (step_updates h).keeps_configuration

end Sys2Proof.Machine
end

section
/-! IDEC's error result (10_state.md R33). -/

namespace Sys2Proof.Machine

/-- `r` is an OK result, or the result of an error: zeros but for the status and the slot. -/
def IdecOut.OkOrError (r : IdecOut) : Prop :=
  r.status = .ok ∨ ∃ st sl, st ≠ .ok ∧ r = idecError st sl

theorem idecError_okOrError {st : Status} (sl : Slot) (h : st ≠ .ok) : (idecError st sl).OkOrError :=
  .inr ⟨st, sl, h, rfl⟩

theorem idecFields_okOrError (c : Config) (win : Vector Byte 10) (avail : BitVec 4) (o : BitVec 8) (pc : ParamCount)
    (m1 m2 : BitVec 4) : (idecFields c win avail o pc m1 m2).OkOrError := by
  unfold idecFields
  dsimp only
  split
  · next hv => exact idecError_okOrError _ hv
  · split
    · exact idecError_okOrError _ (by decide)
    · exact .inl rfl

theorem idec_okOrError (c : Config) (win : Vector Byte 10) (avail : BitVec 4) : (idec c win avail).OkOrError := by
  unfold idec
  split
  · exact idecError_okOrError _ (by decide)
  · dsimp only
    split
    · exact idecError_okOrError _ (by decide)
    · exact idecFields_okOrError ..
    · split
      · exact idecError_okOrError _ (by decide)
      · exact idecFields_okOrError ..

/-- Settles O15: a result that is not OK is one of `idecError`. -/
theorem idecErrorZeroesOutputs : Obligations.IdecErrorZeroesOutputs :=
  fun c win avail h => (idec_okOrError c win avail).resolve_left h

end Sys2Proof.Machine
end

section
/-! Steps with no stream procedure in progress, and the reset state (10_state.md R26 to R35). -/

namespace Sys2Proof.Machine

open Sys2Proof.Statements

/-- With nothing asked, a step is the landing alone (log 15). -/
theorem step_idle_nil {s : State} (hp : s.phase = .idle) (hk : s.calls = []) : step s = .next s.land :=
  operate_idle_nil (s := s.land) hp hk

/-- With no procedure in progress, a step carries out the oldest call. -/
theorem step_idle_cons {s : State} {k : Call} {ks : List Call} (hp : s.phase = .idle) (hk : s.calls = k :: ks) :
    step s = perform k (s.land.withCalls ks) :=
  operate_idle_cons (s := s.land) hp hk

/-- A call whose operation only returns `r` is answered with `r`. -/
theorem step_answers {s : State} {k : Call} {ks : List Call} {r : Reply} (hp : s.phase = .idle) (hk : s.calls = k :: ks)
    (h : perform k (s.land.withCalls ks) = .next ((s.land.withCalls ks).reply r)) :
    ∃ t, step s = .next t ∧ Answered s.land ks r t :=
  ⟨_, (step_idle_cons hp hk).trans h, rfl⟩

/-- Settles O41: each of these calls only returns its own function's outputs. -/
theorem pureCallsAnswer : Obligations.PureCallsAnswer := by
  intro s ks hp
  refine ⟨?width, ?penc, ?pdec, ?validate, ?len, ?ienc, ?pfmt, ?ifmt⟩
  case width => exact fun m hk => step_answers hp hk rfl
  case penc => exact fun m v hk => step_answers hp hk rfl
  case pdec => exact fun m b hk => step_answers hp hk rfl
  case validate => exact fun o m1 m2 f hk => step_answers hp hk rfl
  case len => exact fun o m1 m2 hk => step_answers hp hk rfl
  case ienc => exact fun x cap hk => step_answers hp hk rfl
  case pfmt => exact fun p hk => step_answers hp hk rfl
  case ifmt => exact fun x hk => step_answers hp hk rfl

/-- Nothing is listed and nothing is in flight after reset, so nothing lies outside the buffer (R35). -/
theorem reset_inv : State.reset.Inv :=
  ⟨reset_mem_wf, by simp, by simp⟩

/-- Nothing is in progress and nothing is asked after reset (R35, log 4). -/
theorem reset_honest : State.reset.Honest :=
  ⟨trivial, by simp⟩

/-- Settles O53, by the laws of the reset state. -/
theorem resetHasInvariant : Obligations.ResetHasInvariant :=
  ⟨reset_inv, reset_honest⟩

/-- Settles O59: a step with nothing asked is the landing, which changes nothing when nothing is in flight. -/
theorem idleStepOnlyLands : Obligations.IdleStepOnlyLands := by
  intro s hp hk
  refine ⟨step_idle_nil hp hk, fun hi => ?_⟩
  rw [step_idle_nil hp hk, State.land_of_inflight_nil s hi]

end Sys2Proof.Machine
end

section
/-! What a list of byte writes does to a canonical buffer (20_memory.md R44, R50): every order of writes to different offsets
gives the same content, and writing what already stands there changes nothing. -/

namespace Sys2Proof.Machine

theorem Memory.writeAll_append (m : Memory) (cells cells' : List Host.Cell) :
    m.writeAll (cells ++ cells') = (m.writeAll cells).writeAll cells' :=
  List.foldl_append

/-- Writing to a byte the value it reads as changes nothing. -/
theorem Memory.write_read {m : Memory} (hm : m.wf) (a : Nat) : m.write a (m.read a) = m := by
  refine Memory.ext_of_read (Memory.write_wf hm _ _) hm fun x => ?_
  rw [Memory.read_write hm]
  split
  · next h => rw [h]
  · rfl

/-- Writing to each byte the value it reads as changes nothing. -/
theorem Memory.writeAll_of_read_eq {m : Memory} (hm : m.wf) {cells : List Host.Cell}
    (h : ∀ p ∈ cells, m.read p.1 = p.2) : m.writeAll cells = m := by
  induction cells with
  | nil => rfl
  | cons c t ih =>
    rw [Memory.writeAll_cons, ← h c (by simp), Memory.write_read hm]
    exact ih fun p hp => h p (List.mem_cons_of_mem _ hp)

/-- Writes to different offsets may be made in any order. -/
theorem Memory.writeAll_perm {m : Memory} (hm : m.wf) {cells cells' : List Host.Cell} (h : cells.Perm cells')
    (hn : (cells.map Prod.fst).Nodup) : m.writeAll cells = m.writeAll cells' := by
  have hn' : (cells'.map Prod.fst).Nodup := (h.map Prod.fst).nodup_iff.1 hn
  refine Memory.ext_of_read (Memory.writeAll_wf hm _) (Memory.writeAll_wf hm _) fun a => ?_
  by_cases ha : ∃ p ∈ cells, p.1 = a
  · obtain ⟨p, hp, rfl⟩ := ha
    rw [Memory.read_writeAll_of_mem hm hn hp, Memory.read_writeAll_of_mem hm hn' (h.mem_iff.1 hp)]
  · push Not at ha
    rw [Memory.read_writeAll_other _ _ _ ha, Memory.read_writeAll_other _ _ _ fun p hp => ha p (h.mem_iff.2 hp)]

/-! ### The byte writes of a commit -/

/-- A commit's byte writes are in increasing offset (R44). -/
theorem enabledWrites_pairwise (d : Nat) (r : IencOut) : (enabledWrites d r).Pairwise fun p q => p.1 < q.1 := by
  refine List.pairwise_filterMap.2 ((List.pairwise_lt_finRange 10).imp ?_)
  intro i j hij p hp q hq
  rw [Option.ite_none_right_eq_some] at hp hq
  obtain ⟨-, hp⟩ := hp
  obtain ⟨-, hq⟩ := hq
  obtain rfl := Option.some.inj hp
  obtain rfl := Option.some.inj hq
  exact Nat.add_lt_add_left hij d

theorem enabledWrites_nodup (d : Nat) (r : IencOut) : ((enabledWrites d r).map Prod.fst).Nodup :=
  List.pairwise_map.2 ((enabledWrites_pairwise d r).imp Nat.ne_of_lt)

/-- An enabled byte is among the byte writes. -/
theorem enabledWrite_mem {r : IencOut} {k : Fin 10} (d : Nat) (h : r.we[k] = true) :
    (d + k.val, r.out[k]) ∈ enabledWrites d r :=
  mem_enabledWrites.2 ⟨k, h, rfl⟩

/-! ### The commit -/

/-- A commit inside the buffer takes place (R44). -/
theorem commit_of_inside {s : State} {d : Nat} {r : IencOut} (h : ∀ p ∈ enabledWrites d r, p.1 < s.bufSize) :
    s.commit d r = some (s.withMem (s.mem.writeAll (enabledWrites d r))) :=
  if_pos (inBuffer_iff.2 h)

/-- A second commit inside the buffer writes to the content the first one left. -/
theorem commit_withMem {s : State} {d : Nat} {r : IencOut} (m : Memory) (h : ∀ p ∈ enabledWrites d r, p.1 < s.bufSize) :
    (s.withMem m).commit d r = some (s.withMem (m.writeAll (enabledWrites d r))) :=
  commit_of_inside (s := s.withMem m) h

/-- Settles O43: the enabled bytes have different offsets, so each reads back, their order is free, and a second commit
writes what already stands there. -/
theorem commitWritesEnabledBytes : Obligations.CommitWritesEnabledBytes := by
  intro s t d r hwf hc
  obtain ⟨hin, rfl⟩ := commit_eq_some hc
  have hback : ∀ p ∈ enabledWrites d r, (s.mem.writeAll (enabledWrites d r)).read p.1 = p.2 :=
    fun p hp => Memory.read_writeAll_of_mem hwf (enabledWrites_nodup d r) hp
  refine ⟨?written, ?others, rfl, ?order, ?again⟩
  case written => exact fun k hk => hback _ (enabledWrite_mem d hk)
  case others =>
    refine fun a ha => Memory.read_writeAll_other _ _ _ fun p hp => ?_
    obtain ⟨k, hk, rfl⟩ := mem_enabledWrites.1 hp
    exact (ha k hk).symm
  case order =>
    exact fun cells hperm => (Memory.writeAll_perm hwf hperm.symm (enabledWrites_nodup d r)).symm
  case again =>
    rw [commit_withMem _ hin, Memory.writeAll_of_read_eq (Memory.writeAll_wf hwf _) hback]

/-- Settles O45: the two commits together write to different offsets, so both orders are orders of one list of writes. -/
theorem disjointCommitsCommute : Obligations.DisjointCommitsCommute := by
  intro s t u d d' r r' hwf hdisj ht hu
  obtain ⟨hin, rfl⟩ := commit_eq_some ht
  obtain ⟨hin', rfl⟩ := commit_eq_some hu
  refine ⟨_, commit_of_inside (s := s) hin', ?_⟩
  have hn : ((enabledWrites d r ++ enabledWrites d' r').map Prod.fst).Nodup := by
    rw [List.map_append, List.nodup_append]
    refine ⟨enabledWrites_nodup d r, enabledWrites_nodup d' r', ?_⟩
    simp only [List.forall_mem_map]
    intro p hp q hq
    obtain ⟨k, hk, rfl⟩ := mem_enabledWrites.1 hp
    obtain ⟨k', hk', rfl⟩ := mem_enabledWrites.1 hq
    exact hdisj k k' hk hk'
  have hswap := Memory.writeAll_perm hwf List.perm_append_comm hn
  rw [Memory.writeAll_append, Memory.writeAll_append] at hswap
  rw [commit_withMem _ hin, ← hswap]
  rfl

end Sys2Proof.Machine
end

section
/-! Bytes of other callers that land (20_memory.md R50). -/

namespace Sys2Proof.Machine

/-- After landing a byte reads as before or as one of the values in flight for it. -/
theorem read_landing (cells : List Host.Cell) (n : Nat) {m : Memory} (hm : m.wf) (a : Nat) :
    (landing n cells m).1.read a = m.read a ∨ (a, (landing n cells m).1.read a) ∈ cells := by
  induction cells generalizing n m with
  | nil => exact .inl rfl
  | cons c t ih =>
    rw [landing_cons]
    split
    · rcases ih (n + 1) (Memory.write_wf hm c.1 c.2) with h | h
      · rw [Memory.read_write hm] at h
        split at h
        · next ha => exact .inr (by rw [h, ha]; exact List.mem_cons_self)
        · exact .inl h
      · exact .inr (List.mem_cons_of_mem _ h)
    · exact (ih (n + 1) hm).imp id (List.mem_cons_of_mem _)

/-- A byte in flight stays so, or its offset reads as a value that was in flight for it. -/
theorem landing_stays_or_read_mem (cells : List Host.Cell) (n : Nat) {m : Memory} (hm : m.wf) {p : Host.Cell}
    (hp : p ∈ cells) :
    p ∈ (landing n cells m).2.1 ∨ (p.1, (landing n cells m).1.read p.1) ∈ cells := by
  induction cells generalizing n m with
  | nil => cases hp
  | cons c t ih =>
    rw [landing_cons]
    split
    · have hw := Memory.write_wf hm c.1 c.2
      rcases List.mem_cons.1 hp with rfl | hp
      · right
        rcases read_landing t (n + 1) hw p.1 with h | h
        · rw [h, Memory.read_write_same hm]
          exact List.mem_cons_self
        · exact List.mem_cons_of_mem _ h
      · exact (ih (n + 1) hw hp).imp id (List.mem_cons_of_mem _)
    · rcases List.mem_cons.1 hp with rfl | hp
      · exact .inl List.mem_cons_self
      · exact (ih (n + 1) hm hp).imp (List.mem_cons_of_mem _) (List.mem_cons_of_mem _)

/-- Settles O46, by what landing makes each byte read as and keeps in flight. -/
theorem racingBytesAreWrittenValues : Obligations.RacingBytesAreWrittenValues := by
  intro s hwf
  refine ⟨fun a => ?_, fun p hp => ?_, landing_sublist _ _ _, rfl⟩
  · exact read_landing s.inflight s.draws hwf a
  · exact (landing_stays_or_read_mem s.inflight s.draws hwf hp).imp id fun h => ⟨_, h, rfl⟩

end Sys2Proof.Machine
end

section
/-! The invariant (20_memory.md R44, R46): each update of the model keeps it, so every step does. -/

namespace Sys2Proof.Machine

theorem State.Inv.land {s : State} (h : s.Inv) : s.land.Inv := by
  obtain ⟨hwf, hmem, hfl⟩ := h
  refine ⟨landing_wf _ _ hwf, fun p hp => ?_, fun p hp => ?_⟩
  · exact (mem_landing _ _ _ hp).elim (hmem p) (hfl p)
  · exact hfl p ((landing_sublist _ _ _).subset hp)

theorem State.Inv.presented {s : State} (h : s.Inv) (a n : Nat) : (s.presented a n).Inv := by
  rw [presented_eq]
  exact h

theorem State.Inv.commit {s t : State} {d : Nat} {r : IencOut} (h : s.Inv) (ht : s.commit d r = some t) : t.Inv := by
  obtain ⟨hwf, hmem, hfl⟩ := h
  obtain ⟨hin, rfl⟩ := commit_eq_some ht
  exact ⟨Memory.writeAll_wf hwf _, fun p hp => (Memory.mem_writeAll hp).elim (hmem p) (hin p), hfl⟩

/-- Bytes inside the buffer may join those in flight. -/
theorem State.Inv.launch {s : State} {cells : List Host.Cell} (h : s.Inv) (hin : inBuffer s.bufSize cells = true) :
    (s.withInflight (s.inflight ++ cells) s.draws).Inv := by
  obtain ⟨hwf, hmem, hfl⟩ := h
  exact ⟨hwf, hmem, fun p hp => (List.mem_append.1 hp).elim (hfl p) (inBuffer_iff.1 hin p)⟩

/-- The invariant speaks of the buffer and the bytes in flight alone, so only landing, a commit and the begin of another
caller's commit can matter to it. -/
theorem Updates.keeps_inv {s t : State} (h : Updates s t) (hs : s.Inv) : t.Inv := by
  induction h with
  | refl => exact hs
  | land _ ih => exact ih.land
  | present a n _ ih => exact ih.presented a n
  | commit _ hu ih => exact ih.commit hu
  | launch _ hin ih => exact ih.launch hin
  | phase _ _ ih | take _ _ ih | reply _ _ ih => exact ih

/-- Settles O52: a step is made of updates, each of which keeps the invariant. -/
theorem stepKeepsInvariant : Obligations.StepKeepsInvariant :=
  fun _ _ hs h => (step_updates h).keeps_inv hs

end Sys2Proof.Machine
end

section
/-! IENC's answers (41_instruction_coder.md R143), and its commit under an honest `cap` (70_reset_and_hazards.md R253). -/

namespace Sys2Proof.Machine

theorem iencPorts_we (st : Status) (sl : Slot) (n : BitVec 4) (bytes : List (Byte × Bool)) (k : Fin 10) :
    (iencPorts st sl n bytes).we[k] = (bytes.getD k.val (0, false)).2 := by
  simp [iencPorts]

/-- No byte is enabled beyond those laid out. -/
theorem lt_length_of_iencPorts_we {st : Status} {sl : Slot} {n : BitVec 4} {bytes : List (Byte × Bool)} {k : Fin 10}
    (h : (iencPorts st sl n bytes).we[k] = true) : k.val < bytes.length := by
  by_contra hk
  rw [iencPorts_we, List.getD_eq_default _ _ (Nat.not_lt.1 hk)] at h
  cases h

theorem fieldBytes_length {p : Parameter} {m : ConcreteMode} (h : p.mode = m.tag) : (fieldBytes p).length = m.width := by
  obtain ⟨mode, v⟩ := p
  obtain rfl : mode = m.tag := h
  rw [fieldBytes_tag, List.length_map, leBytes_length]

/-- IENC lays out as many bytes as the format variant has (R148). -/
theorem layout_length (c : Config) {x : Instruction} {f : Format} (h1 : x.p1.mode = f.tag1) (h2 : x.p2.mode = f.tag2) :
    (layout c f.count x).length = f.length := by
  cases f with
  | f0 => rfl
  | f1 m =>
    have hw := fieldBytes_length (p := x.p1) h1
    simp [layout, Format.count, ParamCount.toNat, Format.length, hw]
    omega
  | f2 m1 m2 =>
    have hw1 := fieldBytes_length (p := x.p1) h1
    have hw2 := fieldBytes_length (p := x.p2) h2
    simp [layout, Format.count, ParamCount.toNat, Format.length, hw1, hw2]
    omega

/-- IENC of an instruction value that VALIDATE refuses for emission: its status, with nothing laid out (R224). -/
theorem ienc_of_validate_error {c : Config} {x : Instruction} (cap : BitVec 4)
    (h : (validate c x.opcode x.p1.mode x.p2.mode true).status ≠ .ok) :
    ienc c x cap = iencPorts (validate c x.opcode x.p1.mode x.p2.mode true).status
      (validate c x.opcode x.p1.mode x.p2.mode true).slot (len c x.opcode x.p1.mode x.p2.mode).len [] := by
  unfold ienc
  dsimp only
  split
  · next hok _ => exact absurd hok h
  · rfl

/-- VALIDATE accepts for emission exactly the tags of a format variant of the declared count. -/
theorem validate_true_ok_iff {c : Config} {o : BitVec 8} {t1 t2 : BitVec 4} :
    (validate c o t1 t2 true).status = .ok ↔
      ∃ f : Format, c.declared o = some f.count ∧ t1 = f.tag1 ∧ t2 = f.tag2 := by
  rw [validate_true]
  constructor
  · intro h
    cases hd : c.declared o with
    | none => simp [hd] at h
    | some pc =>
      cases hf : formatOf c pc t1 t2 with
      | error r => rcases formatOf_error hf with hr | hr | hr <;> simp [hd, hf, hr] at h
      | ok f =>
        obtain ⟨rfl, h1, h2⟩ := formatOf_ok hf
        exact ⟨f, rfl, h1, h2⟩
  · rintro ⟨f, hd, rfl, rfl⟩
    simp [hd, formatOf_tags]

/-- IENC of a value of a format variant: CAPACITY when it does not fit `cap`, else its layout (R143). -/
theorem ienc_of_format {c : Config} {x : Instruction} {f : Format} (cap : BitVec 4)
    (hd : c.declared x.opcode = some f.count) (h1 : x.p1.mode = f.tag1) (h2 : x.p2.mode = f.tag2) :
    ienc c x cap =
      if cap.toNat < f.length then iencPorts .capacity .whole (BitVec.ofNat 4 f.length) []
      else iencPorts .ok .whole (BitVec.ofNat 4 f.length) (layout c f.count x) := by
  have hv : (validate c x.opcode f.tag1 f.tag2 true).status = .ok := validate_true_ok_iff.2 ⟨f, hd, rfl, rfl⟩
  simp only [ienc, h1, h2, hd, hv, len_format hd, format_length_toNat]

/-- A byte IENC enables lies below `cap` (R253). -/
theorem ienc_we_lt_cap {c : Config} {x : Instruction} {cap : BitVec 4} {k : Fin 10} (h : (ienc c x cap).we[k] = true) :
    k.val < cap.toNat := by
  by_cases hv : (validate c x.opcode x.p1.mode x.p2.mode true).status = .ok
  · obtain ⟨f, hd, h1, h2⟩ := validate_true_ok_iff.1 hv
    rw [ienc_of_format cap hd h1 h2] at h
    split at h
    · exact absurd (lt_length_of_iencPorts_we h) (Nat.not_lt_zero _)
    · next hcap =>
      have hk := lt_length_of_iencPorts_we h
      rw [layout_length c h1 h2] at hk
      omega
  · rw [ienc_of_validate_error cap hv] at h
    exact absurd (lt_length_of_iencPorts_we h) (Nat.not_lt_zero _)

/-- With an honest `cap` every byte IENC enables lies in the buffer (R46, R253). -/
theorem ienc_writes_inside {c : Config} {x : Instruction} {cap : BitVec 4} {d size : Nat} (h : d + cap.toNat ≤ size) :
    ∀ p ∈ enabledWrites d (ienc c x cap), p.1 < size := by
  intro p hp
  obtain ⟨k, hk, rfl⟩ := mem_enabledWrites.1 hp
  exact lt_of_lt_of_le (Nat.add_lt_add_left (ienc_we_lt_cap hk) d) h

/-- IENC with its commit, where the commit takes place (R44). -/
theorem performCommit_of_commit {s t : State} {x : Instruction} {cap : BitVec 4} {d : Nat}
    (h : s.commit d (ienc s.config x cap) = some t) :
    performCommit x cap d s = .next (t.reply (.ienc (ienc s.config x cap))) := by
  rw [performCommit, h]

/-- IENC with its commit, where the commit has no step (R253). -/
theorem performCommit_of_no_commit {s : State} {x : Instruction} {cap : BitVec 4} {d : Nat}
    (h : s.commit d (ienc s.config x cap) = none) : performCommit x cap d s = .refused .commitOutsideBuffer := by
  rw [performCommit, h]

/-- Settles O44: an honest `cap` keeps the enabled bytes in the buffer, so the commit takes place; an enabled byte outside
refuses it. -/
theorem commitCallCompletes : Obligations.CommitCallCompletes := by
  intro s ks x cap d hp hk
  have hstep : step s = performCommit x cap d (s.land.withCalls ks) := step_idle_cons hp hk
  rw [hstep]
  refine ⟨fun hcap => ?_, fun k hwe hout => ?_⟩
  · have hin : ∀ p ∈ enabledWrites d (ienc s.config x cap), p.1 < s.bufSize := ienc_writes_inside hcap
    have hc : (s.land.withCalls ks).commit d (ienc s.config x cap) = some _ :=
      commit_of_inside (s := s.land.withCalls ks) hin
    exact ⟨_, commit_of_inside (s := s.land) hin, performCommit_of_commit hc⟩
  · exact performCommit_of_no_commit (commit_eq_none.2 ⟨_, enabledWrite_mem d hwe, hout⟩)

/-- Another caller's commit inside the buffer goes in flight (R50, log 8). -/
theorem performOtherCommit_of_inside {s : State} {x : Instruction} {cap : BitVec 4} {d : Nat}
    (h : ∀ p ∈ enabledWrites d (ienc s.config x cap), p.1 < s.bufSize) :
    performOtherCommit x cap d s = .next (s.withInflight (s.inflight ++ enabledWrites d (ienc s.config x cap)) s.draws) :=
  if_pos (inBuffer_iff.2 h)

/-- Settles O47: with an honest `cap` the other caller's bytes lie in the buffer and join those in flight. -/
theorem otherCommitGoesInFlight : Obligations.OtherCommitGoesInFlight := by
  intro s ks x cap d hp hk hcap
  have hstep : step s = performOtherCommit x cap d (s.land.withCalls ks) := step_idle_cons hp hk
  rw [hstep]
  exact (performOtherCommit_of_inside (s := s.land.withCalls ks) (ienc_writes_inside hcap)).trans rfl

end Sys2Proof.Machine
end

section
/-! IENC against the rows of the opcode table (30_encoding.md R68, 41_instruction_coder.md R143). -/

namespace Sys2Proof.Machine

theorem iencPorts_out (st : Status) (sl : Slot) (n : BitVec 4) (bytes : List (Byte × Bool)) (k : Fin 10) :
    (iencPorts st sl n bytes).out[k] = (bytes.getD k.val (0, false)).1 := by
  simp [iencPorts]

/-- Bytes laid out with every enable on are driven and enabled as they are; beyond them the byte and the enable are 0. -/
theorem getD_map_enabled (bytes : List Byte) (k : Nat) :
    (bytes.map fun b => (b, true)).getD k (0, false) = (bytes.getD k 0, decide (k < bytes.length)) := by
  by_cases h : k < bytes.length <;> simp [List.getD_eq_getElem?_getD, h]

/-- With the gate off IENC lays out the row's bytes, each enabled: the row's mode byte packs the two tags, and PENC gives
each field's little-endian bytes (R66, R68). -/
theorem layout_eq_encode {c : Config} (hgate : c.legacyModeGate = false) (i : Instr) :
    layout c i.view.format.count i.toInstruction = (encode i).map fun b => (b, true) := by
  rw [encode_eq, Instr.toInstruction]
  cases i.view.format with
  | f0 => rfl
  | f1 _ | f2 _ _ =>
    simp [layout, formatTail, Format.count, Format.tag1, Format.tag2, ParamCount.toNat, hgate, fieldBytes_tag]

/-- IENC of an instruction of the declared count that fits `cap`: its layout, with the row's length (R143). -/
theorem ienc_of_countOk {c : Config} {i : Instr} {cap : BitVec 4} (hcount : i.countOk c = true)
    (hcap : (encode i).length ≤ cap.toNat) :
    ienc c i.toInstruction cap =
      iencPorts .ok .whole (BitVec.ofNat 4 i.view.format.length) (layout c i.view.format.count i.toInstruction) := by
  have hd : c.declared i.toInstruction.opcode = some i.view.format.count := of_decide_eq_true hcount
  rw [encode_length] at hcap
  rw [ienc_of_format cap hd rfl rfl, if_neg (Nat.not_lt.2 hcap)]

/-- Settles O10: IENC accepts the instruction and lays out its row's bytes, each enabled. -/
theorem iencWritesTheRowEncoding : Obligations.IencWritesTheRowEncoding := by
  intro c i cap hcount hgate hcap
  rw [ienc_of_countOk hcount hcap, layout_eq_encode hgate]
  refine ⟨rfl, rfl, ?_, fun k => ⟨?_, ?_⟩⟩
  · exact (format_length_toNat _).trans (encode_length i).symm
  · rw [iencPorts_we, getD_map_enabled]
  · rw [iencPorts_out, getD_map_enabled]

end Sys2Proof.Machine
end

section
/-! The Parameter Coder (40_parameter_coder.md): WIDTH, PENC and PDEC of a concrete mode's tag and of any other tag, and the
round trip of a field. -/

namespace Sys2Proof.Machine

open Sys2Proof.Statements

/-! ### The tags by width (R61, R64) -/

theorem exists_mode_of_width_one {t : BitVec 4} (h : t = 0 ∨ t = 5 ∨ t = 6) :
    ∃ m : ConcreteMode, t = m.tag ∧ m.width = 1 := by
  rcases h with rfl | rfl | rfl
  · exact ⟨.constant8, rfl, rfl⟩
  · exact ⟨.registerAddress, rfl, rfl⟩
  · exact ⟨.register, rfl, rfl⟩

theorem exists_mode_of_width_four {t : BitVec 4} (h : t = 2 ∨ t = 3 ∨ t = 4) :
    ∃ m : ConcreteMode, t = m.tag ∧ m.width = 4 := by
  rcases h with rfl | rfl | rfl
  · exact ⟨.constant32, rfl, rfl⟩
  · exact ⟨.absoluteAddress, rfl, rfl⟩
  · exact ⟨.relativeAddress, rfl, rfl⟩

/-! ### Each operation on a concrete tag and on any other -/

theorem width_of_noWidth {c : Config} {t : BitVec 4} (h : NoWidth c t) : width c t = ⟨false, 0⟩ := by
  rw [width, classify_eq_unknown.2 h]

theorem penc_tag (m : ConcreteMode) (v : BitVec 32) :
    penc m.tag v =
      ⟨BitVec.ofNat 3 m.width, Vector.ofFn fun i => if i.val < m.width then byteOf v i.val else 0⟩ := by
  simp only [penc, writtenWidth, ofTag_tag, byteOf]

theorem penc_of_not_concrete {t : BitVec 4} (h : 7 ≤ t.toNat) (v : BitVec 32) : penc t v = ⟨0, #v[0, 0, 0, 0]⟩ := by
  simp only [penc, writtenWidth, ofTag_eq_none.2 h]
  rfl

theorem pdec_tag (m : ConcreteMode) (b : Vector Byte 4) :
    pdec m.tag b = ⟨true, BitVec.ofNat 32 (unLE (b.toList.take m.width))⟩ := by
  simp only [pdec, ofTag_tag]

theorem pdec_of_not_concrete {t : BitVec 4} (h : 7 ≤ t.toNat) (b : Vector Byte 4) : pdec t b = ⟨false, 0⟩ := by
  simp only [pdec, ofTag_eq_none.2 h]

/-! ### The round trip (R113) -/

/-- The bytes PENC writes are the little-endian field of the value (R10, R102). -/
theorem penc_bytes_take (m : ConcreteMode) (v : BitVec 32) :
    (penc m.tag v).bytes.toList.take m.width = leBytes m.width v := by
  cases m <;> rfl

theorem pdec_penc (m : ConcreteMode) (v : BitVec 32) :
    pdec m.tag (penc m.tag v).bytes = ⟨true, BitVec.ofNat 32 (v.toNat % 2 ^ (8 * m.width))⟩ := by
  rw [pdec_tag, penc_bytes_take, unLE_leBytes]

theorem penc_pdec_take (m : ConcreteMode) (b : Vector Byte 4) :
    (penc m.tag (pdec m.tag b).value).bytes.toList.take m.width = b.toList.take m.width := by
  have hlen : (b.toList.take m.width).length = m.width := by simpa using width_le m
  rw [penc_bytes_take, pdec_tag, leBytes_unLE m _ hlen]

theorem getElem_eq_of_take_eq {a b : Vector Byte 4} {n : Nat} (h : a.toList.take n = b.toList.take n) {k : Fin 4}
    (hk : k.val < n) : a[k] = b[k] := by
  have hget := congrArg (·[k.val]?) h
  simpa [hk] using hget

/-- Settles O4: PENC writes the little-endian field and PDEC reads it, so the two undo each other on the mode's width, which
is all 32 bits for relative_address. -/
theorem parameterRoundTrip : Obligations.ParameterRoundTrip := by
  refine ⟨fun m v => ⟨?_, pdec_penc m v, ?_⟩, fun m b k hk => getElem_eq_of_take_eq (penc_pdec_take m b) hk⟩
  · rw [penc_tag, width_toNat]
  · rintro rfl
    have hv : BitVec.ofNat 32 (v.toNat % 2 ^ (8 * ConcreteMode.relativeAddress.width)) = v :=
      clip_of_fits (decide_eq_true v.isLt)
    exact ⟨rfl, by rw [pdec_penc, hv]⟩

/-! ### The tables (R101 to R103) -/

/-- Settles O1, by the mode each tag stands for. -/
theorem widthTable : Obligations.WidthTable := fun c =>
  ⟨width_tag c .constant8, width_tag c .constant16, width_tag c .constant32, width_tag c .absoluteAddress,
    width_tag c .relativeAddress, width_tag c .registerAddress, width_tag c .register, width_label c,
    fun _ => width_of_noWidth⟩

/-- Settles O2: what PENC writes depends on the tag through its mode's width alone. -/
theorem pencTable : Obligations.PencTable := by
  intro t v
  refine ⟨fun h => ?one, fun h => ?two, fun h => ?four, fun h => penc_of_not_concrete h v⟩
  case one =>
    obtain ⟨m, rfl, hw⟩ := exists_mode_of_width_one h
    rw [penc_tag, hw]
    rfl
  case two =>
    subst h
    exact penc_tag .constant16 v
  case four =>
    obtain ⟨m, rfl, hw⟩ := exists_mode_of_width_four h
    rw [penc_tag, hw]
    rfl

/-- The sum of R10 for a field of four bytes. -/
theorem unLE_four_bytes (b0 b1 b2 b3 : Byte) :
    unLE [b0, b1, b2, b3] = b0.toNat + 2 ^ 8 * b1.toNat + 2 ^ 16 * b2.toNat + 2 ^ 24 * b3.toNat := by
  simp only [unLE]
  omega

/-- Settles O3: the value is that of the first bytes, as many as the mode's width, summed by R10. -/
theorem pdecTable : Obligations.PdecTable := by
  intro b0 b1 b2 b3
  refine ⟨fun t h => ?one, pdec_tag .constant16 _, fun t h => ?four, fun t h => pdec_of_not_concrete h _⟩
  case one =>
    obtain ⟨m, rfl, hw⟩ := exists_mode_of_width_one h
    rw [pdec_tag, hw, ← BitVec.ofNat_toNat]
    rfl
  case four =>
    obtain ⟨m, rfl, hw⟩ := exists_mode_of_width_four h
    rw [pdec_tag, hw, ← unLE_four_bytes]
    rfl

end Sys2Proof.Machine
end

section
/-! VALIDATE and LEN (41_instruction_coder.md R141, R142), and two-pass sizing (R151). -/

namespace Sys2Proof.Machine

open Sys2Proof.Statements

/-! ### VALIDATE -/

theorem width_invalid_iff (c : Config) (t : BitVec 4) : (width c t).valid = false ↔ NoWidth c t :=
  (width_valid c t).trans classify_eq_unknown

theorem not_noWidth_label (c : Config) : ¬ NoWidth c c.labelOrdinal :=
  fun h => h.2 rfl

theorem width_valid_of_not_noWidth {c : Config} {t : BitVec 4} (h : ¬ NoWidth c t) : (width c t).valid = true :=
  Bool.eq_true_of_not_eq_false (mt (width_invalid_iff c t).1 h)

theorem validate_of_undefined {c : Config} {o : BitVec 8} (h : c.declared o = none) (m1 m2 : BitVec 4) (fin : Bool) :
    validate c o m1 m2 fin = ⟨.undefinedOpcode, .whole⟩ := by
  rw [validate, h]

/-- The checks for a declared count 0: V4 and V5. -/
theorem validate_of_zero {c : Config} {o : BitVec 8} (h : c.declared o = some .zero) (m1 m2 : BitVec 4) (fin : Bool) :
    validate c o m1 m2 fin =
      if m1 ≠ 0 then ⟨.absentModeNonzero, .p1⟩ else if m2 ≠ 0 then ⟨.absentModeNonzero, .p2⟩ else ⟨.ok, .whole⟩ := by
  simp [validate, h, ParamCount.toNat]

/-- The checks for a declared count 1: V2, V5 and V6. -/
theorem validate_of_one {c : Config} {o : BitVec 8} (h : c.declared o = some .one) (m1 m2 : BitVec 4) (fin : Bool) :
    validate c o m1 m2 fin =
      if (width c m1).valid = false then ⟨.unknownMode, .p1⟩
      else if m2 ≠ 0 then ⟨.absentModeNonzero, .p2⟩
      else if fin = true ∧ m1 = c.labelOrdinal then ⟨.unresolvedLabel, .p1⟩
      else ⟨.ok, .whole⟩ := by
  simp [validate, h, ParamCount.toNat]

/-- The checks for a declared count 2: V2, V3, V6 and V7. -/
theorem validate_of_two {c : Config} {o : BitVec 8} (h : c.declared o = some .two) (m1 m2 : BitVec 4) (fin : Bool) :
    validate c o m1 m2 fin =
      if (width c m1).valid = false then ⟨.unknownMode, .p1⟩
      else if (width c m2).valid = false then ⟨.unknownMode, .p2⟩
      else if fin = true ∧ m1 = c.labelOrdinal then ⟨.unresolvedLabel, .p1⟩
      else if fin = true ∧ m2 = c.labelOrdinal then ⟨.unresolvedLabel, .p2⟩
      else ⟨.ok, .whole⟩ := by
  simp [validate, h, ParamCount.toNat]

/-- Settles O5: for each declared count the checks that apply, in order. -/
theorem validateReportsFirstFailure : Obligations.ValidateReportsFirstFailure := by
  intro c o m1 m2 fin
  have hlabel : (width c c.labelOrdinal).valid = true := width_valid_of_not_noWidth (not_noWidth_label c)
  refine ⟨fun h => validate_of_undefined h m1 m2 fin, fun h => ?zero, fun h => ?one, fun h => ?two⟩
  case zero =>
    rw [validate_of_zero h]
    refine ⟨fun h1 => if_pos h1, fun h1 h2 => ?_, fun h1 h2 => ?_⟩
    · rw [if_neg (not_not.2 h1), if_pos h2]
    · rw [if_neg (not_not.2 h1), if_neg (not_not.2 h2)]
  case one =>
    rw [validate_of_one h]
    refine ⟨fun h1 => if_pos ((width_invalid_iff c m1).2 h1), fun h1 h2 => ?_, fun h1 h2 => ?_, fun h1 hl h2 => ?_⟩
    · rw [if_neg (mt (width_invalid_iff c m1).1 h1), if_pos h2]
    · simp [h1, hlabel, h2]
    · simp [width_valid_of_not_noWidth h1, hl, h2]
  case two =>
    rw [validate_of_two h]
    refine ⟨fun h1 => if_pos ((width_invalid_iff c m1).2 h1), fun h1 h2 => ?_, fun h1 h2 => ?_, fun h1 hl h2 => ?_,
      fun h1 hl h2 hl2 => ?_⟩
    · simp [width_valid_of_not_noWidth h1, (width_invalid_iff c m2).2 h2]
    · cases fin <;> simp [h1, hlabel, width_valid_of_not_noWidth h2]
    · simp [width_valid_of_not_noWidth h1, hl, h2, hlabel]
    · simp [width_valid_of_not_noWidth h1, hl, width_valid_of_not_noWidth h2, hl2]

/-- A tag that a slot may have for sizing: one with a width in a present slot, 0 in an absent one (R141, V2 to V5). -/
def sizes (c : Config) (present : Bool) (t : BitVec 4) : Prop :=
  if present then (width c t).valid = true else t = 0

/-- VALIDATE accepts for sizing a defined opcode byte whose slots have such tags. -/
theorem validate_false_ok_iff {c : Config} {o : BitVec 8} {m1 m2 : BitVec 4} :
    (validate c o m1 m2 false).status = .ok ↔
      ∃ pc : ParamCount, c.declared o = some pc ∧ sizes c (1 ≤ pc.toNat) m1 ∧ sizes c (2 ≤ pc.toNat) m2 := by
  cases h : c.declared o with
  | none => simp [validate_of_undefined h]
  | some pc =>
    cases pc with
    | zero =>
      rw [validate_of_zero h]
      split_ifs <;> simp_all [sizes, ParamCount.toNat]
    | one =>
      rw [validate_of_one h]
      split_ifs <;> simp_all [sizes, ParamCount.toNat]
    | two =>
      rw [validate_of_two h]
      split_ifs <;> simp_all [sizes, ParamCount.toNat]

/-- VALIDATE's OK speaks of the instruction as a whole (R223). -/
theorem validate_eq_of_ok {c : Config} {o : BitVec 8} {m1 m2 : BitVec 4} {fin : Bool}
    (h : (validate c o m1 m2 fin).status = .ok) : validate c o m1 m2 fin = ⟨.ok, .whole⟩ := by
  revert h
  unfold validate
  split
  · simp
  · split_ifs <;> simp

/-- For sizing a label is no failure. -/
theorem validate_false_ne_unresolvedLabel (c : Config) (o : BitVec 8) (m1 m2 : BitVec 4) :
    (validate c o m1 m2 false).status ≠ .unresolvedLabel := by
  unfold validate
  split
  · simp
  · split_ifs <;> simp_all

/-! ### LEN -/

theorem len_of_validate_error {c : Config} {o : BitVec 8} {m1 m2 : BitVec 4}
    (h : (validate c o m1 m2 false).status ≠ .ok) :
    len c o m1 m2 = ⟨(validate c o m1 m2 false).status, (validate c o m1 m2 false).slot, 0⟩ := by
  unfold len
  dsimp only
  split
  · next hok _ => exact absurd hok h
  · rfl

theorem len_of_validate_ok {c : Config} {o : BitVec 8} {m1 m2 : BitVec 4} {pc : ParamCount}
    (hd : c.declared o = some pc) (h : (validate c o m1 m2 false).status = .ok) :
    len c o m1 m2 = ⟨.ok, .whole, BitVec.ofNat 4 (lengthSum c pc m1 m2)⟩ := by
  simp only [len, hd, h]

theorem len_status (c : Config) (o : BitVec 8) (m1 m2 : BitVec 4) :
    (len c o m1 m2).status = (validate c o m1 m2 false).status := by
  by_cases h : (validate c o m1 m2 false).status = .ok
  · obtain ⟨pc, hd, -⟩ := validate_false_ok_iff.1 h
    rw [len_of_validate_ok hd h, h]
  · rw [len_of_validate_error h]

theorem width_width_le (c : Config) (t : BitVec 4) : (width c t).width.toNat ≤ 4 := by
  unfold width
  cases classify c t with
  | concrete m => exact (width_toNat m).trans_le (width_le m)
  | label => decide
  | unknown => decide

theorem lengthSum_bounds (c : Config) (pc : ParamCount) (m1 m2 : BitVec 4) :
    1 ≤ lengthSum c pc m1 m2 ∧ lengthSum c pc m1 m2 ≤ 10 := by
  have h1 := width_width_le c m1
  have h2 := width_width_le c m2
  unfold lengthSum
  split_ifs <;> omega

/-- The length port holds the sum (R70). -/
theorem lengthSum_toNat (c : Config) (pc : ParamCount) (m1 m2 : BitVec 4) :
    (BitVec.ofNat 4 (lengthSum c pc m1 m2)).toNat = lengthSum c pc m1 m2 := by
  have h := (lengthSum_bounds c pc m1 m2).2
  simp only [BitVec.toNat_ofNat]
  omega

/-- Settles O6: LEN's status is VALIDATE's, and its length the sum for the declared count. -/
theorem lenIsTheSumOfWidths : Obligations.LenIsTheSumOfWidths := by
  intro c o m1 m2
  refine ⟨len_status c o m1 m2, ?slot, ?label, fun h => ?error, fun h => ?ok⟩
  case label =>
    rw [len_status]
    exact validate_false_ne_unresolvedLabel c o m1 m2
  case slot =>
    by_cases h : (validate c o m1 m2 false).status = .ok
    · obtain ⟨pc, hd, -⟩ := validate_false_ok_iff.1 h
      rw [len_of_validate_ok hd h, validate_eq_of_ok h]
    · rw [len_of_validate_error h]
  case error =>
    rw [len_status] at h
    rw [len_of_validate_error h]
  case ok =>
    rw [len_status] at h
    obtain ⟨pc, hd, -⟩ := validate_false_ok_iff.1 h
    obtain ⟨hpos, hmax⟩ := lengthSum_bounds c pc m1 m2
    rw [len_of_validate_ok hd h, lengthSum_toNat, hd]
    refine ⟨hpos, hmax, ?_⟩
    cases pc with
    | zero => exact .inl ⟨rfl, rfl⟩
    | one => exact .inr (.inl ⟨rfl, rfl⟩)
    | two => exact .inr (.inr ⟨rfl, rfl⟩)

/-! ### Two-pass sizing -/

theorem width_of_isFourByteMode (c : Config) {t : BitVec 4} (h : isFourByteMode t = true) : width c t = ⟨true, 4⟩ := by
  have ht : t = 2 ∨ t = 3 ∨ t = 4 := by simpa [isFourByteMode, or_assoc] using h
  obtain ⟨m, rfl, hw⟩ := exists_mode_of_width_four ht
  rw [width_tag, hw]
  rfl

/-- Resolving a label keeps the width of the slot (R151). -/
theorem width_of_resolvesTo {c : Config} {p q : Parameter} (h : resolvesTo c p q = true) :
    width c q.mode = width c p.mode := by
  unfold resolvesTo at h
  split at h
  · next hl => rw [width_of_isFourByteMode c h, hl, width_label]
  · rw [eq_of_beq h]

/-- Resolving a label keeps a slot fit for sizing: an absent slot has no label. -/
theorem sizes_of_resolvesTo {c : Config} {p q : Parameter} {present : Bool} (h : resolvesTo c p q = true)
    (hp : sizes c present p.mode) : sizes c present q.mode := by
  cases present with
  | true => exact (congrArg WidthOut.valid (width_of_resolvesTo h)).trans hp
  | false =>
    have hp0 : p.mode = 0 := hp
    unfold resolvesTo at h
    rw [if_neg (hp0 ▸ tag_ne_labelOrdinal c .constant8)] at h
    rw [eq_of_beq h]
    exact hp

/-- LEN of an instruction that sizes OK is LEN of its resolved form. -/
theorem len_of_resolvedForm {c : Config} {x y : Instruction} (h : resolvedForm c x y = true)
    (hx : (len c x.opcode x.p1.mode x.p2.mode).status = .ok) :
    len c y.opcode y.p1.mode y.p2.mode = len c x.opcode x.p1.mode x.p2.mode := by
  simp only [resolvedForm, Bool.and_eq_true, beq_iff_eq] at h
  obtain ⟨⟨ho, h1⟩, h2⟩ := h
  rw [len_status] at hx
  obtain ⟨pc, hd, hs1, hs2⟩ := validate_false_ok_iff.1 hx
  have hy := validate_false_ok_iff.2 ⟨pc, hd, sizes_of_resolvesTo h1 hs1, sizes_of_resolvesTo h2 hs2⟩
  rw [ho, len_of_validate_ok hd hx, len_of_validate_ok hd hy]
  simp only [lengthSum, width_of_resolvesTo h1, width_of_resolvesTo h2]

/-- Settles O7, by induction on the list: every instruction keeps its length. -/
theorem resolvedLabelsKeepOffsets : Obligations.ResolvedLabelsKeepOffsets := by
  intro c base xs ys hres hok
  induction hres generalizing base with
  | nil => exact ⟨rfl, rfl⟩
  | @cons x y xs ys hxy _ ih =>
    have hlen := len_of_resolvedForm hxy (hok x List.mem_cons_self)
    obtain ⟨hstart, hend⟩ := ih (base + (len c x.opcode x.p1.mode x.p2.mode).len.toNat)
      fun z hz => hok z (List.mem_cons_of_mem _ hz)
    refine ⟨?_, ?_⟩
    · simp only [startOffsets, hlen, hstart]
    · simp only [endOffset, List.map_cons, List.sum_cons, hlen] at hend ⊢
      omega

end Sys2Proof.Machine
end

section
/-! The decoder on the rows' encodings (30_encoding.md R65 to R74): it gives each row back with its values truncated,
and accepts nothing but encodings. -/

namespace Sys2Proof.Machine

/-- What the encoding of an instruction decodes to: each value truncated to its field (R78, R146). -/
def clipped (i : Instr) : Instr :=
  Instr.ofFormat i.view.format i.view.opcode (i.view.format.value1 i.view.v1) (i.view.format.value2 i.view.v2)

/-- The fields of a format variant, after opcode and mode byte (R67, R68). -/
def fieldsOf (f : Format) (v1 v2 : BitVec 32) : List Byte :=
  match f with
  | .f0 => []
  | .f1 m => leBytes m.width v1
  | .f2 m1 m2 => leBytes m1.width v1 ++ leBytes m2.width v2

theorem format_count_eq_zero {f : Format} : f.count = .zero ↔ f = .f0 := by
  cases f <;> simp [Format.count]

/-- A format variant that has a mode byte has it before its fields. -/
theorem formatTail_eq {f : Format} (hf : f.count ≠ .zero) (v1 v2 : BitVec 32) :
    formatTail f v1 v2 = packModes f.tag1 f.tag2 :: fieldsOf f v1 v2 := by
  cases f with
  | f0 => exact absurd rfl hf
  | f1 m => rfl
  | f2 m1 m2 => rfl

theorem fieldsOf_length {f : Format} (hf : f.count ≠ .zero) (v1 v2 : BitVec 32) :
    (fieldsOf f v1 v2).length + 2 = f.length := by
  cases f with
  | f0 => exact absurd rfl hf
  | f1 m => simp [fieldsOf, Format.length, Nat.add_comm]
  | f2 m1 m2 => simp [fieldsOf, Format.length]; omega

theorem countOk_iff {c : Config} {i : Instr} :
    i.countOk c = true ↔ c.declared i.view.opcode = some i.view.format.count :=
  decide_eq_true_iff

theorem wellFormed_iff {c : Config} {i : Instr} : i.WellFormed c = true ↔ i.countOk c = true ∧ i.valuesFit = true :=
  Bool.and_eq_true_iff

/-- A format variant made into an instruction and taken apart again; the values of absent slots are dropped. -/
theorem view_ofFormat (f : Format) (o : BitVec 8) (v1 v2 : BitVec 32) :
    (Instr.ofFormat f o v1 v2).view =
      ⟨f, o, if f.count = .zero then 0 else v1, if f.count = .two then v2 else 0⟩ := by
  cases f with
  | f0 => rfl
  | f1 m => exact view_ofF1 m o v1
  | f2 m1 m2 => exact view_ofF2 m1 m2 o v1 v2

theorem encode_ofFormat (f : Format) (o : BitVec 8) (v1 v2 : BitVec 32) :
    encode (Instr.ofFormat f o v1 v2) = o :: formatTail f v1 v2 := by
  rw [encode_eq, view_ofFormat]
  cases f <;> rfl

/-- Values that fit their fields are the truncated ones. -/
theorem values_of_valuesFit {i : Instr} (h : i.valuesFit = true) :
    i.view.format.value1 i.view.v1 = i.view.v1 ∧ i.view.format.value2 i.view.v2 = i.view.v2 := by
  have hview := congrArg Instr.view (ofFormat_view i)
  unfold Instr.valuesFit at h
  rw [view_ofFormat] at hview
  cases hf : i.view.format with
  | f0 =>
    rw [hf] at hview
    rw [← hview]
    exact ⟨rfl, rfl⟩
  | f1 m =>
    rw [hf] at h hview
    rw [← hview] at h ⊢
    exact ⟨clip_of_fits h, rfl⟩
  | f2 m1 m2 =>
    rw [hf] at h
    obtain ⟨h1, h2⟩ := Bool.and_eq_true_iff.1 h
    exact ⟨clip_of_fits h1, clip_of_fits h2⟩

theorem clipped_of_valuesFit {i : Instr} (h : i.valuesFit = true) : clipped i = i := by
  obtain ⟨h1, h2⟩ := values_of_valuesFit h
  rw [clipped, h1, h2, ofFormat_view]

/-! ### The fields -/

/-- Fields at the front of the bytes are taken whole, each truncated value in its slot. -/
theorem takeFields_fieldsOf (f : Format) (o : BitVec 8) (v1 v2 : BitVec 32) (rest : List Byte) :
    takeFields f o (fieldsOf f v1 v2 ++ rest) = .ok (Instr.ofFormat f o (f.value1 v1) (f.value2 v2), rest) := by
  cases f with
  | f0 => rfl
  | f1 m =>
    rw [takeFields, fieldsOf, takeField_leBytes]
    rfl
  | f2 m1 m2 =>
    rw [takeFields, fieldsOf, List.append_assoc, takeField_leBytes]
    dsimp only
    rw [takeField_leBytes]
    rfl

/-- Fields taken: the bytes begin with them, and the values are truncated already. -/
theorem takeFields_ok {f : Format} {o : BitVec 8} {bs rest : List Byte} {i : Instr}
    (h : takeFields f o bs = .ok (i, rest)) :
    i.view.format = f ∧ i.view.opcode = o ∧ i.valuesFit = true ∧ bs = fieldsOf f i.view.v1 i.view.v2 ++ rest := by
  cases f with
  | f0 =>
    cases h
    exact ⟨rfl, rfl, rfl, rfl⟩
  | f1 m =>
    rw [takeFields] at h
    split at h
    · cases h
    · next v1 rest1 ht =>
      cases h
      obtain ⟨hfit, hbs⟩ := takeField_eq_some ht
      simp [Instr.valuesFit, fieldsOf, hfit, hbs]
  | f2 m1 m2 =>
    rw [takeFields] at h
    split at h
    · cases h
    · next v1 rest1 ht1 =>
      split at h
      · cases h
      · next v2 rest2 ht2 =>
        cases h
        obtain ⟨hfit1, hbs1⟩ := takeField_eq_some ht1
        obtain ⟨hfit2, hbs2⟩ := takeField_eq_some ht2
        simp [Instr.valuesFit, fieldsOf, hfit1, hfit2, hbs1, hbs2]

/-- Fields are refused where bytes are missing, and only there. -/
theorem takeFields_error {f : Format} {o : BitVec 8} {bs : List Byte} {r : Reject} (h : takeFields f o bs = .error r) :
    r = ⟨.truncated, .whole⟩ ∧ bs.length + 2 < f.length := by
  cases f with
  | f0 => cases h
  | f1 m =>
    rw [takeFields] at h
    split at h
    · next ht =>
      have hlt := takeField_eq_none.1 ht
      cases h
      exact ⟨rfl, by simp only [Format.length]; omega⟩
    · cases h
  | f2 m1 m2 =>
    rw [takeFields] at h
    split at h
    · next ht =>
      have hlt := takeField_eq_none.1 ht
      cases h
      exact ⟨rfl, by simp only [Format.length]; omega⟩
    · next v1 rest1 ht1 =>
      split at h
      · next ht2 =>
        have hlt := takeField_eq_none.1 ht2
        have hlen := congrArg List.length (takeField_eq_some ht1).2
        rw [List.length_append, leBytes_length] at hlen
        cases h
        exact ⟨rfl, by simp only [Format.length]; omega⟩
      · cases h

/-! ### The decoder -/

/-- A count-0 opcode byte is decoded alone. -/
theorem decode_of_zero {c : Config} {o : BitVec 8} (h : c.declared o = some .zero) (rest : List Byte) :
    decode c (o :: rest) = .ok (.f0 o, rest) := by
  simp only [decode, h]

/-- With a count above 0, the mode byte selects the format variant whose fields follow. -/
theorem decode_of_format {c : Config} {o : BitVec 8} {pc : ParamCount} {b : Byte} {f : Format}
    (h : c.declared o = some pc) (hpc : pc ≠ .zero) (hf : formatOf c pc (hiNibble b) (loNibble b) = .ok f)
    (fields : List Byte) : decode c (o :: b :: fields) = takeFields f o fields := by
  cases pc with
  | zero => exact absurd rfl hpc
  | one => simp only [decode, h, hf]
  | two => simp only [decode, h, hf]

/-- With a count above 0, a mode byte that selects no format variant is refused. -/
theorem decode_of_refused_modes {c : Config} {o : BitVec 8} {pc : ParamCount} {b : Byte} {r : Reject}
    (h : c.declared o = some pc) (hpc : pc ≠ .zero) (hr : formatOf c pc (hiNibble b) (loNibble b) = .error r)
    (fields : List Byte) : decode c (o :: b :: fields) = .error r := by
  cases pc with
  | zero => exact absurd rfl hpc
  | one => simp only [decode, h, hr]
  | two => simp only [decode, h, hr]

/-- With a count above 0, an opcode byte alone is truncated. -/
theorem decode_of_mode_missing {c : Config} {o : BitVec 8} {pc : ParamCount} (h : c.declared o = some pc)
    (hpc : pc ≠ .zero) : decode c [o] = .error ⟨.truncated, .whole⟩ := by
  cases pc with
  | zero => exact absurd rfl hpc
  | one => simp only [decode, h]
  | two => simp only [decode, h]

/-- The encoding of an instruction of its declared count decodes to it with its values truncated, whatever bytes
follow. -/
theorem decode_encode_append {c : Config} {i : Instr} (h : i.countOk c = true) (rest : List Byte) :
    decode c (encode i ++ rest) = .ok (clipped i, rest) := by
  have hd := countOk_iff.1 h
  rw [encode_eq, clipped]
  by_cases hf : i.view.format.count = .zero
  · have hf0 := format_count_eq_zero.1 hf
    rw [hf] at hd
    rw [hf0]
    exact decode_of_zero hd rest
  · have hmodes : formatOf c i.view.format.count (hiNibble (packModes i.view.format.tag1 i.view.format.tag2))
        (loNibble (packModes i.view.format.tag1 i.view.format.tag2)) = .ok i.view.format := by
      rw [hiNibble_packModes, loNibble_packModes, formatOf_tags]
    rw [formatTail_eq hf, List.cons_append, List.cons_append, decode_of_format hd hf hmodes]
    exact takeFields_fieldsOf ..

/-- What the decoder accepts begins with the encoding of the well-formed instruction it gives. -/
theorem decode_ok {c : Config} {bs rest : List Byte} {i : Instr} (h : decode c bs = .ok (i, rest)) :
    i.WellFormed c = true ∧ bs = encode i ++ rest := by
  rcases bs with _ | ⟨o, bs⟩
  · cases h
  cases hd : c.declared o with
  | none => simp [decode, hd] at h
  | some pc =>
    by_cases hpc : pc = .zero
    · subst hpc
      rw [decode_of_zero hd] at h
      cases h
      exact ⟨wellFormed_iff.2 ⟨countOk_iff.2 hd, rfl⟩, rfl⟩
    rcases bs with _ | ⟨b, fields⟩
    · rw [decode_of_mode_missing hd hpc] at h
      cases h
    cases hf : formatOf c pc (hiNibble b) (loNibble b) with
    | error r =>
      rw [decode_of_refused_modes hd hpc hf] at h
      cases h
    | ok f =>
      rw [decode_of_format hd hpc hf] at h
      obtain ⟨rfl, h1, h2⟩ := formatOf_ok hf
      obtain ⟨rfl, rfl, hfit, rfl⟩ := takeFields_ok h
      refine ⟨wellFormed_iff.2 ⟨countOk_iff.2 hd, hfit⟩, ?_⟩
      rw [encode_eq, formatTail_eq hpc, ← h1, ← h2, packModes_nibbles]
      rfl

end Sys2Proof.Machine
end

section
/-! IDEC's pseudocode against the decoder (41_instruction_coder.md R144). -/

namespace Sys2Proof.Machine

open Sys2Proof.Statements

/-! ### The bytes presented -/

theorem getElem_of_take_eq {win : Vector Byte 10} {n : Nat} {bs : List Byte} (h : win.toList.take n = bs) (k : Fin 10)
    (hk : k.val < bs.length) : win[k] = bs[k.val] := by
  subst h
  simp

theorem length_of_take_eq {win : Vector Byte 10} {n : Nat} {bs : List Byte} (h : win.toList.take n = bs) :
    bs.length = min n 10 := by
  subst h
  simp

/-- The four bytes of a window from an offset begin with a field that stands there. -/
theorem windowField_take {win : Vector Byte 10} {n : Nat} {pre mid post : List Byte}
    (h : win.toList.take n = pre ++ (mid ++ post)) (hmid : mid.length ≤ 4) :
    (windowField win pre.length).toList.take mid.length = mid := by
  have hlen := length_of_take_eq h
  simp only [List.length_append] at hlen
  refine List.ext_getElem (by simp; omega) fun k hk _ => ?_
  have hkm : k < mid.length := by simp at hk; omega
  have hget := getElem_of_take_eq h ⟨pre.length + k, by omega⟩ (by simp; omega)
  simp only [List.getElem_append_right (Nat.le_add_right _ _), Nat.add_sub_cancel_left,
    List.getElem_append_left hkm, Fin.getElem_fin] at hget
  simp [windowField, List.getD_eq_getElem?_getD, ← hget]
  rw [Vector.getElem?_eq_getElem (by omega)]
  rfl

/-- PDEC of a window at a field of its mode gives the truncated value (R103, R113). -/
theorem pdec_windowField {win : Vector Byte 10} {n : Nat} {pre post : List Byte} {m : ConcreteMode} {v : BitVec 32}
    (h : win.toList.take n = pre ++ (leBytes m.width v ++ post)) :
    (pdec m.tag (windowField win pre.length)).value = m.clip v := by
  have htake := windowField_take h (by simpa using width_le m)
  rw [leBytes_length] at htake
  rw [pdec_tag, htake, clip_eq]

/-! ### IDEC's checks (R144) -/

theorem idec_of_nothing_presented (c : Config) (win : Vector Byte 10) {avail : BitVec 4} (h : avail.toNat < 1) :
    idec c win avail = idecError .truncated .whole := by
  simp only [idec, h, if_true]

theorem idec_of_undefined {c : Config} {win : Vector Byte 10} {avail : BitVec 4} (h : 1 ≤ avail.toNat)
    (hd : c.declared win[0] = none) : idec c win avail = idecError .undefinedOpcode .whole := by
  simp only [idec, hd, if_neg (Nat.not_lt.2 h)]

theorem idec_of_zero {c : Config} {win : Vector Byte 10} {avail : BitVec 4} (h : 1 ≤ avail.toNat)
    (hd : c.declared win[0] = some .zero) : idec c win avail = idecFields c win avail win[0] .zero 0 0 := by
  simp only [idec, hd, if_neg (Nat.not_lt.2 h)]

theorem idec_of_mode_missing {c : Config} {win : Vector Byte 10} {avail : BitVec 4} {pc : ParamCount}
    (h : avail.toNat = 1) (hd : c.declared win[0] = some pc) (hpc : pc ≠ .zero) :
    idec c win avail = idecError .truncated .whole := by
  cases pc with
  | zero => exact absurd rfl hpc
  | one => simp [idec, hd, h]
  | two => simp [idec, hd, h]

theorem idec_of_modes {c : Config} {win : Vector Byte 10} {avail : BitVec 4} {pc : ParamCount} (h : 2 ≤ avail.toNat)
    (hd : c.declared win[0] = some pc) (hpc : pc ≠ .zero) :
    idec c win avail = idecFields c win avail win[0] pc (hiNibble win[1]) (loNibble win[1]) := by
  have h1 : ¬ avail.toNat < 1 := by omega
  have h2 : ¬ avail.toNat < 2 := by omega
  cases pc with
  | zero => exact absurd rfl hpc
  | one => simp only [idec, hd, h1, h2, if_false]
  | two => simp only [idec, hd, h1, h2, if_false]

/-- D4: what VALIDATE refuses for emission, IDEC refuses with its status and slot. -/
theorem idecFields_of_refused {c : Config} {win : Vector Byte 10} {avail : BitVec 4} {o : BitVec 8} {pc : ParamCount}
    {m1 m2 : BitVec 4} (h : (validate c o m1 m2 true).status ≠ .ok) :
    idecFields c win avail o pc m1 m2 = idecError (validate c o m1 m2 true).status (validate c o m1 m2 true).slot :=
  if_pos h

/-- D5: bytes are missing. -/
theorem idecFields_of_short {c : Config} {win : Vector Byte 10} {avail : BitVec 4} {o : BitVec 8} {pc : ParamCount}
    {m1 m2 : BitVec 4} (h : (validate c o m1 m2 true).status = .ok) (hlt : avail.toNat < (len c o m1 m2).len.toNat) :
    idecFields c win avail o pc m1 m2 = idecError .truncated .whole := by
  simp only [idecFields, h, hlt, ne_eq, not_true_eq_false, if_true, if_false]

/-- Past D5 IDEC is OK. -/
theorem idecFields_status_of_enough {c : Config} {win : Vector Byte 10} {avail : BitVec 4} {o : BitVec 8}
    {pc : ParamCount} {m1 m2 : BitVec 4} (h : (validate c o m1 m2 true).status = .ok)
    (hle : (len c o m1 m2).len.toNat ≤ avail.toNat) : (idecFields c win avail o pc m1 m2).status = .ok := by
  simp only [idecFields, h, if_neg (Nat.not_lt.2 hle), ne_eq, not_true_eq_false, if_false]

theorem validate_of_refused_format {c : Config} {o : BitVec 8} {pc : ParamCount} {m1 m2 : BitVec 4} {r : Reject}
    (hd : c.declared o = some pc) (hr : formatOf c pc m1 m2 = .error r) :
    validate c o m1 m2 true = ⟨r.status, r.slot⟩ := by
  simp only [validate_true, hd, hr]

theorem validate_of_format {c : Config} {o : BitVec 8} {f : Format} (hd : c.declared o = some f.count) :
    (validate c o f.tag1 f.tag2 true).status = .ok :=
  validate_true_ok_iff.2 ⟨f, hd, rfl, rfl⟩

/-- Past D5 IDEC reads the fields of the format variant from the window. -/
theorem idecFields_of_enough {c : Config} {win : Vector Byte 10} {avail : BitVec 4} {f : Format} {o : BitVec 8}
    (hd : c.declared o = some f.count) (hle : f.length ≤ avail.toNat) :
    idecFields c win avail o f.count f.tag1 f.tag2 =
      okOut o (BitVec.ofNat 2 f.count.toNat) f.tag1
        (if f.count = .zero then 0 else (pdec f.tag1 (windowField win 2)).value) f.tag2
        (if f.count = .two then (pdec f.tag2 (windowField win (2 + (width c f.tag1).width.toNat))).value else 0)
        (BitVec.ofNat 4 f.length) := by
  have hcap : ¬ avail.toNat < f.length := Nat.not_lt.2 hle
  simp only [idecFields, validate_of_format hd, len_format hd, format_length_toNat, hcap, ne_eq, not_true_eq_false,
    if_false]
  cases f <;> rfl

/-- IDEC's fields of a window that begins with an encoding: each value truncated (R144, R146). -/
theorem idecFields_of_encoding {c : Config} {win : Vector Byte 10} {avail : BitVec 4} {f : Format} {o : BitVec 8}
    {v1 v2 : BitVec 32} {rest : List Byte} (hd : c.declared o = some f.count) (hle : f.length ≤ avail.toNat)
    (h : win.toList.take avail.toNat = o :: (formatTail f v1 v2 ++ rest)) :
    idecFields c win avail o f.count f.tag1 f.tag2 = decodedAs f o v1 v2 := by
  rw [idecFields_of_enough hd hle]
  cases f with
  | f0 => rfl
  | f1 m =>
    have h1 : (pdec m.tag (windowField win 2)).value = m.clip v1 :=
      pdec_windowField (pre := [o, packModes m.tag 0]) h
    simp [okOut, decodedAs, Format.count, Format.tag1, Format.value1, Format.value2, h1]
  | f2 m1 m2 =>
    have h1 : (pdec m1.tag (windowField win 2)).value = m1.clip v1 :=
      pdec_windowField (pre := [o, packModes m1.tag m2.tag]) (post := leBytes m2.width v2 ++ rest)
        (by simpa [formatTail] using h)
    have h2 : (pdec m2.tag (windowField win (2 + m1.width))).value = m2.clip v2 := by
      have hpre : (o :: packModes m1.tag m2.tag :: leBytes m1.width v1).length = 2 + m1.width := by
        simp only [List.length_cons, leBytes_length]
        omega
      rw [← hpre]
      exact pdec_windowField (post := rest) (by simpa [formatTail] using h)
    simp only [okOut, decodedAs, Format.count, Format.tag1, Format.tag2, Format.value1, Format.value2, h1, h2,
      width_tag, width_toNat, reduceCtorEq, if_false, if_true]

/-- IDEC of a window that begins with the encoding of an instruction of its declared count (R146). -/
theorem idec_of_encoding {c : Config} {win : Vector Byte 10} {avail : BitVec 4} {i : Instr} {rest : List Byte}
    (hcount : i.countOk c = true) (h : win.toList.take avail.toNat = encode i ++ rest) :
    idec c win avail = decodedAs i.view.format i.view.opcode i.view.v1 i.view.v2 := by
  have hd := countOk_iff.1 hcount
  have hlen := length_of_take_eq h
  rw [List.length_append, encode_length] at hlen
  have hle : i.view.format.length ≤ avail.toNat := by omega
  rw [encode_eq, List.cons_append] at h
  have h0 : win[0] = i.view.opcode := getElem_of_take_eq h 0 (Nat.zero_lt_succ _)
  rw [← idecFields_of_encoding hd hle h]
  rw [← h0] at hd ⊢
  have hpos := format_length_pos i.view.format
  by_cases hf : i.view.format.count = .zero
  · have hf0 := format_count_eq_zero.1 hf
    rw [hf] at hd
    rw [idec_of_zero (by omega) hd, hf0]
    rfl
  · rw [formatTail_eq hf] at h
    have h1 : win[1] = packModes i.view.format.tag1 i.view.format.tag2 :=
      getElem_of_take_eq h 1 (Nat.succ_lt_succ (Nat.zero_lt_succ _))
    have htwo := fieldsOf_length hf 0 0
    rw [idec_of_modes (by omega) hd hf, h1, hiNibble_packModes, loNibble_packModes]

/-- IDEC refuses what the decoder refuses, with its status and slot (R144, R225). -/
theorem idec_of_decode_error {c : Config} {win : Vector Byte 10} {avail : BitVec 4} {r : Reject}
    (h : decode c (win.toList.take avail.toNat) = .error r) :
    idec c win avail = idecError r.status r.slot ∧ r.status ≠ .ok := by
  generalize hbs : win.toList.take avail.toNat = bs at h
  have hlen := length_of_take_eq hbs
  rcases bs with _ | ⟨o, bs⟩
  · cases h
    rw [List.length_nil] at hlen
    exact ⟨idec_of_nothing_presented c win (by omega), by decide⟩
  rw [List.length_cons] at hlen
  have h0 : win[0] = o := getElem_of_take_eq hbs 0 (Nat.zero_lt_succ _)
  cases hd : c.declared o with
  | none =>
    rw [decode, hd] at h
    cases h
    exact ⟨idec_of_undefined (by omega) (h0 ▸ hd), by decide⟩
  | some pc =>
    by_cases hpc : pc = .zero
    · subst hpc
      rw [decode_of_zero hd] at h
      cases h
    rcases bs with _ | ⟨b, fields⟩
    · rw [decode_of_mode_missing hd hpc] at h
      cases h
      rw [List.length_nil] at hlen
      exact ⟨idec_of_mode_missing (by omega) (h0 ▸ hd) hpc, by decide⟩
    rw [List.length_cons] at hlen
    have h1 : win[1] = b := getElem_of_take_eq hbs 1 (Nat.succ_lt_succ (Nat.zero_lt_succ _))
    rw [idec_of_modes (by omega) (h0 ▸ hd) hpc, h0, h1]
    cases hf : formatOf c pc (hiNibble b) (loNibble b) with
    | error r' =>
      rw [decode_of_refused_modes hd hpc hf] at h
      cases h
      have hne : r.status ≠ .ok := by rcases formatOf_error hf with hr | hr | hr <;> simp [hr]
      have hv := validate_of_refused_format hd hf
      rw [idecFields_of_refused (by rw [hv]; exact hne), hv]
      exact ⟨rfl, hne⟩
    | ok f =>
      rw [decode_of_format hd hpc hf] at h
      obtain ⟨rfl, hm1, hm2⟩ := formatOf_ok hf
      obtain ⟨rfl, hlt⟩ := takeFields_error h
      have hle := format_length_le f
      rw [hm1, hm2]
      refine ⟨idecFields_of_short (validate_of_format hd) ?_, by decide⟩
      rw [len_format hd, format_length_toNat]
      omega

/-- IDEC's length of an instruction is its encoding's. -/
theorem decodedAs_len_toNat (f : Format) (o : BitVec 8) (v1 v2 : BitVec 32) :
    (decodedAs f o v1 v2).len.toNat = f.length :=
  format_length_toNat f

/-- IDEC gives the parts of the instruction that the decoder gives. -/
theorem idec_of_decode_ok {c : Config} {win : Vector Byte 10} {avail : BitVec 4} {i : Instr} {rest : List Byte}
    (h : decode c (win.toList.take avail.toNat) = .ok (i, rest)) :
    idec c win avail = decodedAs i.view.format i.view.opcode i.view.v1 i.view.v2 := by
  obtain ⟨hwf, hbs⟩ := decode_ok h
  exact idec_of_encoding (wellFormed_iff.1 hwf).1 hbs

/-- Settles O18: what the decoder accepts begins with an encoding, of which IDEC reads the same values; what it refuses
IDEC refuses. -/
theorem decoderAgreesWithIdec : Obligations.DecoderAgreesWithIdec := by
  intro c win avail
  cases h : decode c (win.toList.take avail.toNat) with
  | error r => exact idec_of_decode_error h
  | ok p =>
    obtain ⟨i, rest⟩ := p
    have hidec := idec_of_decode_ok h
    refine ⟨hidec, ?_⟩
    rw [hidec, decodedAs_len_toNat, (decode_ok h).2, ← encode_length, List.drop_left]

end Sys2Proof.Machine
end

section
/-! IENC by the instruction its value spells (41_instruction_coder.md R143 to R148). -/

namespace Sys2Proof.Machine

/-! ### The instruction a value spells -/

/-- A value spells an instruction of its declared count, with its opcode byte, its tags and the values of its present
slots. -/
theorem ofInstruction_ok {c : Config} {x : Instruction} {i : Instr} (h : Instr.ofInstruction c x = .ok i) :
    i.countOk c = true ∧ i.view.opcode = x.opcode ∧ x.p1.mode = i.view.format.tag1 ∧ x.p2.mode = i.view.format.tag2 ∧
      i = Instr.ofFormat i.view.format x.opcode x.p1.value x.p2.value := by
  unfold Instr.ofInstruction at h
  cases hd : c.declared x.opcode with
  | none => simp [hd] at h
  | some pc =>
    cases hf : formatOf c pc x.p1.mode x.p2.mode with
    | error r => simp [hd, hf] at h
    | ok f =>
      simp only [hd, hf] at h
      cases h
      obtain ⟨rfl, h1, h2⟩ := formatOf_ok hf
      rw [countOk_iff, view_ofFormat]
      exact ⟨hd, rfl, h1, h2, rfl⟩

/-- A value that spells no instruction is refused by VALIDATE for emission, with the same status and slot. -/
theorem validate_of_ofInstruction_error {c : Config} {x : Instruction} {r : Reject}
    (h : Instr.ofInstruction c x = .error r) :
    validate c x.opcode x.p1.mode x.p2.mode true = ⟨r.status, r.slot⟩ ∧ r.status ≠ .ok := by
  unfold Instr.ofInstruction at h
  cases hd : c.declared x.opcode with
  | none =>
    simp only [hd] at h
    cases h
    exact ⟨by simp only [validate_true, hd], by decide⟩
  | some pc =>
    cases hf : formatOf c pc x.p1.mode x.p2.mode with
    | error r' =>
      simp only [hd, hf] at h
      cases h
      exact ⟨validate_of_refused_format hd hf, by rcases formatOf_error hf with hr | hr | hr <;> simp [hr]⟩
    | ok f => simp [hd, hf] at h

/-- An instruction of its declared count is the one its own value spells. -/
theorem ofInstruction_toInstruction {c : Config} {i : Instr} (h : i.countOk c = true) :
    Instr.ofInstruction c i.toInstruction = .ok i := by
  have hd : c.declared i.toInstruction.opcode = some i.view.format.count := countOk_iff.1 h
  have hf : formatOf c i.view.format.count i.toInstruction.p1.mode i.toInstruction.p2.mode = .ok i.view.format :=
    formatOf_tags c _
  simp only [Instr.ofInstruction, hd, hf]
  exact congrArg _ (ofFormat_view i)

/-! ### LEN and IENC of it -/

theorem len_of_ofInstruction {c : Config} {x : Instruction} {i : Instr} (h : Instr.ofInstruction c x = .ok i) :
    len c x.opcode x.p1.mode x.p2.mode = ⟨.ok, .whole, BitVec.ofNat 4 i.view.format.length⟩ := by
  obtain ⟨hcount, ho, h1, h2, -⟩ := ofInstruction_ok h
  rw [h1, h2]
  exact len_format (ho ▸ countOk_iff.1 hcount)

/-- IENC of a value that spells an instruction which does not fit `cap`. -/
theorem ienc_of_no_room {c : Config} {x : Instruction} {i : Instr} {cap : BitVec 4}
    (h : Instr.ofInstruction c x = .ok i) (hcap : cap.toNat < i.view.format.length) :
    ienc c x cap = iencPorts .capacity .whole (BitVec.ofNat 4 i.view.format.length) [] := by
  obtain ⟨hcount, ho, h1, h2, -⟩ := ofInstruction_ok h
  rw [ienc_of_format cap (ho ▸ countOk_iff.1 hcount) h1 h2, if_pos hcap]

/-- IENC of a value that spells an instruction which fits `cap`. -/
theorem ienc_of_room {c : Config} {x : Instruction} {i : Instr} {cap : BitVec 4}
    (h : Instr.ofInstruction c x = .ok i) (hcap : i.view.format.length ≤ cap.toNat) :
    ienc c x cap =
      iencPorts .ok .whole (BitVec.ofNat 4 i.view.format.length) (layout c i.view.format.count x) := by
  obtain ⟨hcount, ho, h1, h2, -⟩ := ofInstruction_ok h
  rw [ienc_of_format cap (ho ▸ countOk_iff.1 hcount) h1 h2, if_neg (Nat.not_lt.2 hcap)]

/-- IENC of a value that spells no instruction: its refusal, with nothing laid out. -/
theorem ienc_of_ofInstruction_error {c : Config} {x : Instruction} {r : Reject} (cap : BitVec 4)
    (h : Instr.ofInstruction c x = .error r) :
    ienc c x cap = iencPorts r.status r.slot (len c x.opcode x.p1.mode x.p2.mode).len [] := by
  obtain ⟨hv, hne⟩ := validate_of_ofInstruction_error h
  rw [ienc_of_validate_error cap (by rw [hv]; exact hne), hv]

/-- Everything IENC can answer: the refusal of a value that spells no instruction, CAPACITY, or the layout. -/
theorem ienc_cases (c : Config) (x : Instruction) (cap : BitVec 4) :
    (∃ r, Instr.ofInstruction c x = .error r ∧ r.status ≠ .ok ∧
      ienc c x cap = iencPorts r.status r.slot (len c x.opcode x.p1.mode x.p2.mode).len []) ∨
    (∃ i, Instr.ofInstruction c x = .ok i ∧ cap.toNat < i.view.format.length ∧
      ienc c x cap = iencPorts .capacity .whole (BitVec.ofNat 4 i.view.format.length) []) ∨
    (∃ i, Instr.ofInstruction c x = .ok i ∧ i.view.format.length ≤ cap.toNat ∧
      ienc c x cap =
        iencPorts .ok .whole (BitVec.ofNat 4 i.view.format.length) (layout c i.view.format.count x)) := by
  cases h : Instr.ofInstruction c x with
  | error r => exact .inl ⟨r, rfl, (validate_of_ofInstruction_error h).2, ienc_of_ofInstruction_error cap h⟩
  | ok i =>
    rcases Nat.lt_or_ge cap.toNat i.view.format.length with hcap | hcap
    · exact .inr (.inl ⟨i, rfl, hcap, ienc_of_no_room h hcap⟩)
    · exact .inr (.inr ⟨i, rfl, hcap, ienc_of_room h hcap⟩)

/-- IENC is OK exactly in the last case. -/
theorem ienc_ok {c : Config} {x : Instruction} {cap : BitVec 4} (h : (ienc c x cap).status = .ok) :
    ∃ i, Instr.ofInstruction c x = .ok i ∧ i.view.format.length ≤ cap.toNat ∧
      ienc c x cap =
        iencPorts .ok .whole (BitVec.ofNat 4 i.view.format.length) (layout c i.view.format.count x) := by
  rcases ienc_cases c x cap with ⟨r, -, hne, hr⟩ | ⟨i, -, -, hi⟩ | hok
  · rw [hr] at h
    exact absurd h hne
  · rw [hi] at h
    cases h
  · exact hok

/-! ### The bytes laid out -/

/-- Whether IENC enables byte `k` of what it lays out: under the legacy gate not the mode byte of a constant8 p1
(R145). -/
def enables (c : Config) (x : Instruction) (k : Nat) : Bool :=
  k != 1 || !c.legacyModeGate || x.p1.mode != 0

theorem enables_of_ne_one (c : Config) (x : Instruction) {k : Nat} (h : k ≠ 1) : enables c x k = true := by
  simp [enables, h]

theorem enables_of_gate_off {c : Config} (h : c.legacyModeGate = false) (x : Instruction) (k : Nat) :
    enables c x k = true := by
  simp [enables, h]

theorem mapIdx_eq_map (bs : List Byte) (g : Byte → Byte × Bool) : (bs.mapIdx fun _ b => g b) = bs.map g :=
  List.ext_getElem (by simp) (by simp)

/-- IENC lays out the encoding of the instruction the value spells. -/
theorem layout_of_ofInstruction {c : Config} {x : Instruction} {i : Instr} (h : Instr.ofInstruction c x = .ok i) :
    layout c i.view.format.count x = (encode i).mapIdx fun k b => (b, enables c x k) := by
  obtain ⟨-, -, h1, h2, hi⟩ := ofInstruction_ok h
  rw [hi, encode_ofFormat, view_ofFormat]
  generalize i.view.format = f at h1 h2
  obtain ⟨o, ⟨m1, v1⟩, ⟨m2, v2⟩⟩ := x
  subst h1 h2
  cases f with
  | f0 => rfl
  | f1 m =>
    simp [layout, formatTail, Format.count, Format.tag1, Format.tag2, ParamCount.toNat, fieldBytes_tag, enables,
      mapIdx_eq_map]
  | f2 m1 m2 =>
    simp [layout, formatTail, Format.count, Format.tag1, Format.tag2, ParamCount.toNat, fieldBytes_tag, enables,
      mapIdx_eq_map]

/-- The write enables of IENC's result for an instruction that fits `cap` (R145, R148). -/
theorem ienc_we_of_room {c : Config} {x : Instruction} {i : Instr} {cap : BitVec 4}
    (h : Instr.ofInstruction c x = .ok i) (hcap : i.view.format.length ≤ cap.toNat) (k : Fin 10) :
    (ienc c x cap).we[k] = (decide (k.val < i.view.format.length) && enables c x k.val) := by
  rw [ienc_of_room h hcap, iencPorts_we, layout_of_ofInstruction h, ← encode_length]
  by_cases hk : k.val < (encode i).length <;> simp [List.getD_eq_getElem?_getD, hk]

/-- The bytes of IENC's result for an instruction that fits `cap`: its encoding, and 0 beyond it (R143). -/
theorem ienc_out_of_room {c : Config} {x : Instruction} {i : Instr} {cap : BitVec 4}
    (h : Instr.ofInstruction c x = .ok i) (hcap : i.view.format.length ≤ cap.toNat) (k : Fin 10) :
    (ienc c x cap).out[k] = (encode i).getD k.val 0 := by
  rw [ienc_of_room h hcap, iencPorts_out, layout_of_ofInstruction h]
  by_cases hk : k.val < (encode i).length <;> simp [List.getD_eq_getElem?_getD, hk]

theorem ienc_len_of_room {c : Config} {x : Instruction} {i : Instr} {cap : BitVec 4}
    (h : Instr.ofInstruction c x = .ok i) (hcap : i.view.format.length ≤ cap.toNat) :
    (ienc c x cap).len.toNat = i.view.format.length := by
  rw [ienc_of_room h hcap]
  exact format_length_toNat _

/-- IENC's `len` output is LEN's, whatever its status (R143). -/
theorem ienc_len (c : Config) (x : Instruction) (cap : BitVec 4) :
    (ienc c x cap).len = (len c x.opcode x.p1.mode x.p2.mode).len := by
  rcases ienc_cases c x cap with ⟨r, -, -, hr⟩ | ⟨i, hi, -, hr⟩ | ⟨i, hi, -, hr⟩
  · rw [hr]
    rfl
  · rw [hr, len_of_ofInstruction hi]
    rfl
  · rw [hr, len_of_ofInstruction hi]
    rfl

/-- Settles O9: a value that spells no instruction is refused as VALIDATE refuses it; for one that spells an instruction
the length against `cap` decides. -/
theorem iencStatusOrder : Obligations.IencStatusOrder := by
  intro c x cap
  refine ⟨ienc_len c x cap, fun hne => ?_, fun hok => ?_⟩
  · rw [ienc_of_validate_error cap hne]
    exact ⟨rfl, rfl⟩
  · cases h : Instr.ofInstruction c x with
    | error r =>
      obtain ⟨hv, hne⟩ := validate_of_ofInstruction_error h
      rw [hv] at hok
      exact absurd hok hne
    | ok i =>
      have hlen : (ienc c x cap).len.toNat = i.view.format.length := by
        rw [ienc_len, len_of_ofInstruction h, format_length_toNat]
      rw [hlen]
      refine ⟨fun hlt => ?_, fun hle => ?_⟩
      · rw [ienc_of_no_room h hlt]
        exact ⟨rfl, rfl⟩
      · rw [ienc_of_room h hle]
        exact ⟨rfl, rfl⟩

/-- Settles O11: the layout is the encoding, every byte of it enabled but the one the gate leaves out. -/
theorem lengthAgreement : Obligations.LengthAgreement := by
  intro c x cap hok
  obtain ⟨i, hi, hcap, -⟩ := ienc_ok hok
  have hlen := ienc_len_of_room hi hcap
  obtain ⟨hcount, ho, -, -, -⟩ := ofInstruction_ok hi
  refine ⟨ienc_len c x cap, fun hgate k => ?_, fun k hk => ?_, fun pc hpc => ?_⟩
  · rw [ienc_we_of_room hi hcap, hlen, enables_of_gate_off hgate, Bool.and_true]
  · rw [ienc_we_of_room hi hcap, hlen, enables_of_ne_one c x hk, Bool.and_true]
  · have hd := countOk_iff.1 hcount
    rw [ho, hpc] at hd
    obtain rfl := Option.some.inj hd
    rw [layout_of_ofInstruction hi, List.length_mapIdx, encode_length, hlen]

/-! ### The legacy gate (R145) -/

/-- The gate has no part in what a value spells. -/
theorem ofInstruction_gate (c : Config) (g : Bool) (x : Instruction) :
    Instr.ofInstruction { c with legacyModeGate := g } x = Instr.ofInstruction c x := rfl

theorem len_gate (c : Config) (g : Bool) (o : BitVec 8) (m1 m2 : BitVec 4) :
    len { c with legacyModeGate := g } o m1 m2 = len c o m1 m2 := rfl

/-- With nothing laid out no byte is enabled. -/
theorem iencPorts_nil_we (st : Status) (sl : Slot) (n : BitVec 4) (k : Fin 10) : (iencPorts st sl n []).we[k] = false :=
  iencPorts_we st sl n [] k

/-- A commit leaves alone the offset of a byte that is not enabled (R44). -/
theorem read_commit_of_not_enabled {s t : State} {d : Nat} {r : IencOut} (h : s.commit d r = some t) {a : Nat}
    (ha : ∀ k : Fin 10, r.we[k] = true → a ≠ d + k.val) : t.mem.read a = s.mem.read a := by
  obtain ⟨-, rfl⟩ := commit_eq_some h
  refine Memory.read_writeAll_other _ _ _ fun p hp => ?_
  obtain ⟨k, hk, rfl⟩ := mem_enabledWrites.1 hp
  exact (ha k hk).symm

theorem read_commit_of_byte_not_enabled {s t : State} {d : Nat} {r : IencOut} (h : s.commit d r = some t) {k : Fin 10}
    (hk : r.we[k] = false) : t.mem.read (d + k.val) = s.mem.read (d + k.val) := by
  refine read_commit_of_not_enabled h fun k' hk' heq => ?_
  obtain rfl : k = k' := Fin.ext (by omega)
  rw [hk] at hk'
  cases hk'

/-- Under either gate IENC refuses a value alike, or the value spells an instruction that fits `cap`. -/
theorem ienc_gate_cases (c : Config) (x : Instruction) (cap : BitVec 4) :
    (∃ st sl n, st ≠ .ok ∧ ∀ g, ienc { c with legacyModeGate := g } x cap = iencPorts st sl n []) ∨
    (∃ i, i.view.format.length ≤ cap.toNat ∧ ∀ g, Instr.ofInstruction { c with legacyModeGate := g } x = .ok i) := by
  rcases ienc_cases c x cap with ⟨r, hr, hne, -⟩ | ⟨i, hi, hcap, -⟩ | ⟨i, hi, hcap, -⟩
  · refine .inl ⟨r.status, r.slot, (len c x.opcode x.p1.mode x.p2.mode).len, hne, fun g => ?_⟩
    rw [ienc_of_ofInstruction_error cap ((ofInstruction_gate c g x).trans hr), len_gate]
  · exact .inl ⟨_, _, _, by decide, fun g => ienc_of_no_room ((ofInstruction_gate c g x).trans hi) hcap⟩
  · exact .inr ⟨i, hcap, fun g => (ofInstruction_gate c g x).trans hi⟩

theorem one_lt_format_length_iff (f : Format) : 1 < f.length ↔ f.count ≠ .zero := by
  cases f with
  | f0 => simp [Format.length, Format.count]
  | f1 m => simp [Format.length, Format.count]; omega
  | f2 m1 m2 => simp [Format.length, Format.count]; omega

/-- The mode byte of an encoding that has one packs the two tags (R66). -/
theorem encode_getD_one {i : Instr} (h : i.view.format.count ≠ .zero) :
    (encode i).getD 1 0 = packModes i.view.format.tag1 i.view.format.tag2 := by
  rw [encode_eq, formatTail_eq h]
  rfl

theorem packModes_zero (m : BitVec 4) : packModes 0 m = m.setWidth 8 := by
  revert m
  decide

/-- Settles O12: a value that spells an instruction which fits has the same layout under either gate, with byte 1 enabled
as `enables` says; otherwise nothing is laid out. -/
theorem legacyGateDropsByteOneOnly : Obligations.LegacyGateDropsByteOneOnly := by
  intro c x cap
  dsimp only
  rcases ienc_gate_cases c x cap with ⟨st, sl, n, hne, hg⟩ | ⟨i, hcap, hi⟩
  · have hwe : (iencPorts st sl n []).we[1] ≠ true :=
      Bool.eq_false_iff.1 (iencPorts_nil_we st sl n 1)
    rw [hg, hg]
    exact ⟨rfl, rfl, rfl, rfl, fun _ _ => rfl, ⟨fun h => absurd h hwe, fun h => absurd h.1 hwe⟩,
      ⟨fun h => absurd h hwe, fun h => absurd h.1 hne⟩, fun h => absurd h hwe⟩
  · have hports : ∀ g, ienc { c with legacyModeGate := g } x cap = _ := fun g => ienc_of_room (hi g) hcap
    have hwe : ∀ g (k : Fin 10), (ienc { c with legacyModeGate := g } x cap).we[k] = _ :=
      fun g k => ienc_we_of_room (hi g) hcap k
    have hout : ∀ g (k : Fin 10), (ienc { c with legacyModeGate := g } x cap).out[k] = _ :=
      fun g k => ienc_out_of_room (hi g) hcap k
    have hon : (ienc { c with legacyModeGate := true } x cap).we[1] =
        (decide (1 < i.view.format.length) && x.p1.mode != 0) := hwe true 1
    have hoff : (ienc { c with legacyModeGate := false } x cap).we[1] = decide (1 < i.view.format.length) := by
      simpa [enables] using hwe false 1
    obtain ⟨hcount, ho, h1, h2, -⟩ := ofInstruction_ok (hi true)
    refine ⟨?status, ?slot, ?len, ?out, fun k hk => ?others, ?dropped, ?enabled, fun hbyte hmode => ⟨?mode, ?kept⟩⟩
    case status => rw [hports, hports]; rfl
    case slot => rw [hports, hports]; rfl
    case len => rw [hports, hports]; rfl
    case out => exact Vector.ext fun k hk => (hout true ⟨k, hk⟩).trans (hout false ⟨k, hk⟩).symm
    case others => rw [hwe, hwe, enables_of_ne_one _ _ hk, enables_of_ne_one _ _ hk]
    case dropped => rw [hon, hoff]; simp
    case enabled =>
      rw [hoff, hports, decide_eq_true_iff, one_lt_format_length_iff]
      have hd : c.declared x.opcode = some i.view.format.count := ho ▸ countOk_iff.1 hcount
      exact ⟨fun h => ⟨rfl, _, hd, h⟩, fun ⟨_, pc, hpc, hne⟩ => Option.some.inj (hpc.symm.trans hd) ▸ hne⟩
    case mode =>
      have hf : i.view.format.count ≠ .zero := (one_lt_format_length_iff _).1 (of_decide_eq_true (hoff ▸ hbyte))
      exact (hout true 1).trans ((encode_getD_one hf).trans (by rw [← h1, ← h2, hmode, packModes_zero]))
    case kept =>
      intro s t d ht
      exact read_commit_of_byte_not_enabled ht (k := 1) (hon.trans (by simp [hmode]))

end Sys2Proof.Machine
end

section
/-! IDEC's checks in order (41_instruction_coder.md R144), and the round trips of IENC and IDEC (R146, R147). -/

namespace Sys2Proof.Machine

open Sys2Proof.Statements

/-- Settles O16: IDEC check by check, and for a defined opcode byte the steps D4 and D5 on its mode tags. -/
theorem idecCheckOrder : Obligations.IdecCheckOrder := by
  intro c win avail
  refine ⟨fun h => ?none_presented, fun h hd => idec_of_undefined h hd, fun h hd => ?zero, fun pc hpc hd => ?modes⟩
  case none_presented =>
    subst h
    exact idec_of_nothing_presented c win (by decide)
  case zero =>
    rw [idec_of_zero h hd]
    exact idecFields_of_enough (f := .f0) hd h
  case modes =>
    refine ⟨fun h => idec_of_mode_missing h hd hpc, fun h => ?_⟩
    rw [idec_of_modes h hd hpc]
    exact ⟨idecFields_of_refused, fun hv => ⟨idecFields_of_short hv, idecFields_status_of_enough hv⟩⟩

/-! ### Decode, then encode (R147) -/

/-- What IDEC accepts begins with the encoding of a well-formed instruction, and IDEC gives its parts. -/
theorem idec_ok {c : Config} {win : Vector Byte 10} {avail : BitVec 4} (h : (idec c win avail).status = .ok) :
    ∃ i rest, i.WellFormed c = true ∧ win.toList.take avail.toNat = encode i ++ rest ∧
      idec c win avail = decodedAs i.view.format i.view.opcode i.view.v1 i.view.v2 := by
  cases hdec : decode c (win.toList.take avail.toNat) with
  | error r =>
    obtain ⟨hr, hne⟩ := idec_of_decode_error hdec
    rw [hr] at h
    exact absurd h hne
  | ok p =>
    obtain ⟨hwf, hbs⟩ := decode_ok hdec
    exact ⟨p.1, p.2, hwf, hbs, idec_of_decode_ok hdec⟩

/-- What IDEC accepts is at least one byte, and no more than the bytes presented. -/
theorem idec_len_bounds {c : Config} {win : Vector Byte 10} {avail : BitVec 4} (h : (idec c win avail).status = .ok) :
    1 ≤ (idec c win avail).len.toNat ∧ (idec c win avail).len.toNat ≤ avail.toNat := by
  obtain ⟨i, rest, -, hbs, hidec⟩ := idec_ok h
  have hlen := length_of_take_eq hbs
  rw [List.length_append, encode_length] at hlen
  rw [hidec, decodedAs_len_toNat]
  exact ⟨format_length_pos _, by omega⟩

/-- The value IDEC gives for a well-formed instruction is the instruction's own. -/
theorem instructionOf_decodedAs {i : Instr} (h : i.valuesFit = true) :
    instructionOf (decodedAs i.view.format i.view.opcode i.view.v1 i.view.v2) = i.toInstruction := by
  obtain ⟨h1, h2⟩ := values_of_valuesFit h
  simp only [instructionOf, decodedAs, h1, h2, Instr.toInstruction]

/-- Different instructions of their declared counts have different values. -/
theorem toInstruction_inj {c : Config} {i i' : Instr} (h : i.countOk c = true) (h' : i'.countOk c = true)
    (heq : i.toInstruction = i'.toInstruction) : i = i' := by
  have hi := ofInstruction_toInstruction h
  rw [heq, ofInstruction_toInstruction h'] at hi
  exact (Except.ok.inj hi).symm

theorem getElem_eq_encode {win : Vector Byte 10} {n : Nat} {i : Instr} {rest : List Byte}
    (h : win.toList.take n = encode i ++ rest) {k : Fin 10} (hk : k.val < i.view.format.length) :
    win[k] = (encode i).getD k.val 0 := by
  rw [← encode_length] at hk
  rw [getElem_of_take_eq h k (by rw [List.length_append]; omega), List.getElem_append_left hk]
  exact (List.getD_eq_getElem _ _ hk).symm

/-- Settles O14: the window begins with the encoding of the instruction decoded, which is what IENC lays out for it, and
which the result alone determines. -/
theorem decodeThenEncode : Obligations.DecodeThenEncode := by
  intro c win avail hok
  obtain ⟨i, rest, hwf, hbs, hidec⟩ := idec_ok hok
  obtain ⟨hcount, hfit⟩ := wellFormed_iff.1 hwf
  refine ⟨fun cap hgate hcap => ?encode, fun win' avail' hsame k hk => ?injective⟩
  case encode =>
    have hspell := ofInstruction_toInstruction hcount
    rw [hidec, instructionOf_decodedAs hfit, decodedAs_len_toNat]
    rw [hidec, decodedAs_len_toNat] at hcap
    refine ⟨?_, ?_, fun k => ⟨?_, fun hk => ?_⟩⟩
    · rw [ienc_of_room hspell hcap]
      rfl
    · rw [ienc_of_room hspell hcap]
      rfl
    · rw [ienc_we_of_room hspell hcap, enables_of_gate_off hgate, Bool.and_true]
    · rw [ienc_out_of_room hspell hcap, getElem_eq_encode hbs hk]
  case injective =>
    obtain ⟨i', rest', hwf', hbs', hidec'⟩ := idec_ok (hsame ▸ hok)
    obtain ⟨hcount', hfit'⟩ := wellFormed_iff.1 hwf'
    have hvalue : i'.toInstruction = i.toInstruction := by
      rw [← instructionOf_decodedAs hfit', ← instructionOf_decodedAs hfit, ← hidec', ← hidec, hsame]
    obtain rfl := toInstruction_inj hcount' hcount hvalue
    rw [hidec, decodedAs_len_toNat] at hk
    rw [getElem_eq_encode hbs' hk, getElem_eq_encode hbs hk]

/-! ### Encode, commit, decode (R146) -/

/-- Where the mode byte is enabled or already right, the buffer holds the instruction's encoding after the commit. -/
theorem read_commit_eq_encode {s t : State} {d : Nat} {x : Instruction} {cap : BitVec 4} {i : Instr} (hwf : s.mem.wf)
    (hi : Instr.ofInstruction s.config x = .ok i) (hcap : i.view.format.length ≤ cap.toNat)
    (hc : s.commit d (ienc s.config x cap) = some t)
    (hmode : s.config.legacyModeGate = false ∨ x.p1.mode ≠ 0 ∨ s.mem.read (d + 1) = packModes x.p1.mode x.p2.mode)
    {k : Fin 10} (hk : k.val < i.view.format.length) : t.mem.read (d + k.val) = (encode i).getD k.val 0 := by
  obtain ⟨hwritten, -⟩ := commitWritesEnabledBytes s t d _ hwf hc
  have hwe := ienc_we_of_room hi hcap k
  rw [decide_eq_true hk, Bool.true_and] at hwe
  by_cases hen : enables s.config x k.val = true
  · rw [hwritten k (hwe.trans hen), ienc_out_of_room hi hcap]
  · have hkept := read_commit_of_byte_not_enabled hc (hwe.trans (Bool.eq_false_iff.2 hen))
    simp only [enables, Bool.or_eq_true, bne_iff_ne, Bool.not_eq_true', not_or, not_not] at hen
    obtain ⟨⟨hk1, hgate⟩, hm⟩ := hen
    have hright := (hmode.resolve_left hgate).resolve_left (not_not.2 hm)
    obtain ⟨-, -, h1, h2, -⟩ := ofInstruction_ok hi
    rw [hkept, hk1, hright, h1, h2, encode_getD_one ((one_lt_format_length_iff _).1 (hk1 ▸ hk))]

/-- A window that shows an encoding begins with it. -/
theorem take_of_shows {m : Memory} {d n : Nat} {win : Vector Byte 10} {i : Instr} (hn : n = i.view.format.length)
    (hm : ∀ k : Fin 10, k.val < i.view.format.length → m.read (d + k.val) = (encode i).getD k.val 0)
    (hs : Shows m d n win) : win.toList.take n = encode i := by
  subst hn
  have hle := format_length_le i.view.format
  refine List.ext_getElem (by simp [encode_length, hle]) fun k hk hk' => ?_
  have hlt : k < i.view.format.length := encode_length i ▸ hk'
  have hread := (hs ⟨k, by omega⟩ hlt).trans (hm ⟨k, by omega⟩ hlt)
  simpa [List.getD_eq_getElem?_getD, hk'] using hread

theorem truncated_tag (c : Config) (m : ConcreteMode) (v : BitVec 32) : truncated c ⟨m.tag, v⟩ = ⟨m.tag, m.clip v⟩ := by
  simp only [truncated, width_tag, width_toNat, ConcreteMode.clip]

/-- The result R146 states for a value is IDEC's result for the instruction it spells. -/
theorem decodedBack_eq {c : Config} {x : Instruction} {i : Instr} (h : Instr.ofInstruction c x = .ok i) :
    decodedBack c i.view.format.count x (BitVec.ofNat 4 i.view.format.length) =
      decodedAs i.view.format i.view.opcode i.view.v1 i.view.v2 := by
  obtain ⟨-, -, h1, h2, hi⟩ := ofInstruction_ok h
  have hview := congrArg Instr.view hi
  rw [view_ofFormat] at hview
  generalize i.view = w at *
  obtain ⟨f, o, w1, w2⟩ := w
  obtain ⟨o', ⟨m1, v1⟩, ⟨m2, v2⟩⟩ := x
  dsimp only at h1 h2 hview ⊢
  subst h1 h2
  injection hview with _ ho hv1 hv2
  subst ho
  rw [hv1, hv2]
  cases f with
  | f0 => rfl
  | f1 m =>
    simp only [decodedBack, Format.count, Format.tag1, truncated_tag, reduceCtorEq, if_false]
    rfl
  | f2 m1 m2 =>
    simp only [decodedBack, Format.count, Format.tag1, Format.tag2, truncated_tag, reduceCtorEq, if_false, if_true]
    rfl

/-- Settles O13: after the commit the window begins with the encoding of the instruction the value spells, which IDEC
reads with its values truncated. -/
theorem encodeThenDecode : Obligations.EncodeThenDecode := by
  intro s t d x cap win r hwf hok hc hmode hshows
  obtain ⟨i, hi, hcap, hports⟩ := ienc_ok hok
  obtain ⟨hcount, ho, -⟩ := ofInstruction_ok hi
  have hlen : r.len.toNat = i.view.format.length := ienc_len_of_room hi hcap
  have hbytes : win.toList.take r.len.toNat = encode i ++ [] := by
    rw [List.append_nil]
    exact take_of_shows hlen (fun k hk => read_commit_eq_encode hwf hi hcap hc hmode hk) hshows
  have hconfig : t.config = s.config := (commit_eq_some hc).2 ▸ rfl
  refine ⟨i.view.format.count, ho ▸ countOk_iff.1 hcount, ?_⟩
  rw [hconfig, idec_of_encoding hcount hbytes, ← decodedBack_eq hi]
  exact congrArg _ (congrArg IencOut.len hports).symm

end Sys2Proof.Machine
end

section
/-! IDEC as a call and in DecodeSeq's rounds (41_instruction_coder.md R144, R150; 20_memory.md R53). -/

namespace Sys2Proof.Machine

open Sys2Proof.Statements

/-! ### Windows as lists and as ports -/

/-- Bytes presented as a window: 0 beyond them. -/
def padded (bs : List Byte) : Vector Byte 10 :=
  Vector.ofFn fun k => bs.getD k.val 0

theorem padded_getElem (bs : List Byte) (k : Fin 10) : (padded bs)[k] = bs.getD k.val 0 := by
  simp [padded]

theorem take_padded {bs : List Byte} (h : bs.length ≤ 10) : (padded bs).toList.take bs.length = bs := by
  refine List.ext_getElem (by simp [h]) fun k hk hk' => ?_
  simp [padded, List.getD_eq_getElem?_getD, hk']

theorem presents_padded_window (s : State) (d : Nat) (n : Nat) : Presents s d n (padded (s.window d n)) := by
  refine ⟨fun k hk hin => ?_, fun k hk => ?_⟩
  · rw [padded_getElem, List.getD_eq_getElem _ _ (by simpa using hk), window_getElem, windowByte_of_inside hin]
  · rw [padded_getElem, List.getD_eq_default _ _ (by simpa using hk)]

/-- A window that shows the buffer is the bytes presented of it, inside the buffer. -/
theorem take_eq_window {s : State} {d n : Nat} {win : Vector Byte 10} (hn : n ≤ 10) (hin : d + n ≤ s.bufSize)
    (h : Shows s.mem d n win) : win.toList.take n = s.window d n := by
  refine List.ext_getElem (by simp [hn]) fun k hk hk' => ?_
  have hkn : k < n := by simpa using hk'
  rw [window_getElem, windowByte_of_inside (by omega)]
  simpa using h ⟨k, by omega⟩ hkn

theorem toNat_ofNat_min_ten (n : Nat) : (BitVec.ofNat 4 (min 10 n)).toNat = min 10 n := by
  simp only [BitVec.toNat_ofNat]
  omega

/-! ### IDEC calls -/

/-- IDEC of the bytes presented returns IDEC's outputs. -/
theorem performIdec_eq {s : State} {win : Vector Byte 10} {avail : BitVec 4} (hp : s.phase = .idle) :
    performIdec (win.toList.take avail.toNat) s = .next (s.reply (.idec (idec s.config win avail))) := by
  rcases performIdec_cases (win.toList.take avail.toNat) s with ⟨i, rest, hdec, hrun⟩ | ⟨r, hdec, hrun⟩
  · rw [hrun, exec_eq_handle, handle_idle hp, idec_of_decode_ok hdec]
  · rw [hrun, (idec_of_decode_error hdec).1]

/-- IDEC of the image at an offset returns IDEC of any window whose presented bytes stand there. -/
theorem performIdecAt_eq {s : State} {win : Vector Byte 10} {avail : BitVec 4} {d : Nat} (hp : s.phase = .idle)
    (h : win.toList.take avail.toNat = s.window d (min 10 avail.toNat)) :
    performIdecAt d avail s =
      .next ((s.presented d (min 10 avail.toNat)).reply (.idec (idec s.config win avail))) := by
  rw [performIdecAt, ← h, performIdec_eq ((presented_phase s d _).trans hp), presented_config]

/-- Of a window of ten bytes at most ten are presented. -/
theorem take_min_ten (win : Vector Byte 10) (n : Nat) : win.toList.take (min 10 n) = win.toList.take n := by
  exact List.ext_getElem (by simp; omega) (by simp)

/-- With no bytes presented nothing changes. -/
theorem presented_zero (s : State) (d : Nat) : s.presented d 0 = s := by
  unfold State.presented
  split <;> rfl

/-- Settles O42: IDEC of the window, of a window that shows the image, and in general of the bytes presented, padded. -/
theorem idecCallsAnswerIdec : Obligations.IdecCallsAnswerIdec := by
  intro s ks win avail hp
  have hidle : (s.land.withCalls ks).phase = .idle := hp
  refine ⟨fun hk => ?by_value, fun d hk hin hshows => ?inside, fun d hk => ?nothing, fun d hk => ?anywhere⟩
  case by_value => exact step_answers hp hk (performIdec_eq hidle)
  case inside =>
    have hwin : win.toList.take avail.toNat = (s.land.withCalls ks).window d (min 10 avail.toNat) := by
      rw [← take_min_ten]
      exact take_eq_window (s := s.land.withCalls ks) (Nat.min_le_left _ _) hin hshows
    refine step_answers hp hk ((performIdecAt_eq hidle hwin).trans ?_)
    rw [presented_of_inside (s := s.land.withCalls ks) hin]
    rfl
  case nothing =>
    refine step_answers hp hk ((performIdecAt_eq (win := win) (avail := 0) hidle rfl).trans ?_)
    rw [idec_of_nothing_presented _ win (by decide)]
    exact congrArg (fun t : State => Host.Outcome.next (t.reply _)) (presented_zero _ d)
  case anywhere =>
    have hwin : (padded (s.land.window d (min 10 avail.toNat))).toList.take avail.toNat =
        (s.land.withCalls ks).window d (min 10 avail.toNat) := by
      have htake := take_padded (bs := s.land.window d (min 10 avail.toNat)) (by simp)
      rw [window_length, take_min_ten] at htake
      exact htake
    refine ⟨_, ((s.land.withCalls ks).presented d (min 10 avail.toNat)).draws, _, presents_padded_window s.land d _,
      (step_idle_cons hp hk).trans (performIdecAt_eq hidle hwin), ?_⟩
    rw [presented_eq]
    rfl

/-! ### DecodeSeq's rounds -/

theorem step_decoding {s : State} {c e : Nat} {l : List Entry} (hp : s.phase = .decoding c e l) :
    step s = decodeRound c e l s.land :=
  operate_decoding (s := s.land) hp

theorem decodeRound_of_end {c e : Nat} (h : e ≤ c) (l : List Entry) (s : State) :
    decodeRound c e l s = .next (s.finish (.decodeDone l)) :=
  if_neg (Nat.not_lt.2 h)

/-- A round where the bytes at the cursor decode runs the instruction. -/
theorem decodeRound_of_decode {c e : Nat} {l : List Entry} {s : State} {i : Instr} {rest : List Byte} (h : c < e)
    (hd : decode s.config (s.window c (min 10 (e - c))) = .ok (i, rest)) :
    decodeRound c e l s = exec i (s.presented c (min 10 (e - c))) := by
  simp only [decodeRound, h, if_true, hd]

/-- Settles O35: the round runs what the window decodes to, and inside the buffer presenting it changes nothing. -/
theorem stepRunsDecodedInstruction : Obligations.StepRunsDecodedInstruction := by
  intro s c e l rest i hp hlt hd
  have hstep : step s = exec i (s.land.presented c (min 10 (e - c))) :=
    (step_decoding hp).trans (decodeRound_of_decode (s := s.land) hlt hd)
  refine ⟨hstep, fun hin => ?_⟩
  rw [presented_of_inside (s := s.land) hin] at hstep
  exact ⟨hstep, fun hfl => by rw [hstep, State.land_of_inflight_nil s hfl]⟩

/-- Where a round of DecodeSeq leads when IDEC gives `r` at the cursor: the next entry, or the stop at an error
(R150). -/
def decodeRoundResult (c e : Nat) (l : List Entry) (r : IdecOut) (s : State) : State :=
  if r.status = .ok then s.withPhase (.decoding (c + r.len.toNat) e (l ++ [⟨c, r⟩]))
  else s.finish (.decodeFailed c r.status r.slot l)

/-- A round before the end is IDEC of any window whose presented bytes stand at the cursor (R150). -/
theorem decodeRound_eq_idec {c e : Nat} {l : List Entry} {s : State} {win : Vector Byte 10}
    (hp : s.phase = .decoding c e l) (h : c < e)
    (hwin : win.toList.take (min 10 (e - c)) = s.window c (min 10 (e - c))) :
    decodeRound c e l s = .next (decodeRoundResult c e l (idec s.config win (BitVec.ofNat 4 (min 10 (e - c))))
      (s.presented c (min 10 (e - c)))) := by
  have hbytes : win.toList.take (BitVec.ofNat 4 (min 10 (e - c))).toNat = s.window c (min 10 (e - c)) := by
    rw [toNat_ofNat_min_ten, hwin]
  rcases decodeRound_cases c e l s with ⟨hle, -⟩ | ⟨i, rest, -, hdec, hrun⟩ | ⟨r, -, hdec, hrun⟩
  · omega
  · rw [← hbytes] at hdec
    rw [hrun, exec_eq_handle, handle_decoding ((presented_phase s c _).trans hp), idec_of_decode_ok hdec,
      decodeRoundResult, decodedAs_len_toNat]
    rfl
  · rw [← hbytes] at hdec
    obtain ⟨hidec, hne⟩ := idec_of_decode_error hdec
    rw [hrun, hidec, decodeRoundResult]
    exact (congrArg _ (if_neg hne)).symm

/-- Settles O36: a round is IDEC of the window that shows the image, and past the buffer of the bytes presented,
padded. -/
theorem decodeSeqFollowsIdec : Obligations.DecodeSeqFollowsIdec := by
  intro s c e l hp
  have hp' : s.land.phase = .decoding c e l := hp
  have hstep := step_decoding hp
  refine ⟨fun hle => ?at_end, fun hlt hin win hshows => ?inside, fun hlt => ?anywhere⟩
  case at_end => exact hstep.trans (decodeRound_of_end hle l s.land)
  case inside =>
    have hround := decodeRound_eq_idec hp' hlt (take_eq_window (s := s.land) (Nat.min_le_left _ _) hin hshows)
    rw [presented_of_inside (s := s.land) hin] at hround
    intro r
    refine ⟨fun hok => ?_, fun hne => ?_⟩
    · exact (hstep.trans hround).trans (congrArg _ (if_pos hok))
    · exact (hstep.trans hround).trans (congrArg _ (if_neg hne))
  case anywhere =>
    have htake := take_padded (bs := s.land.window c (min 10 (e - c))) (by simp)
    rw [window_length] at htake
    have hround := decodeRound_eq_idec hp' hlt htake
    rw [presented_eq] at hround
    refine ⟨_, (s.land.presented c (min 10 (e - c))).draws, presents_padded_window s.land c _, ?_⟩
    intro r
    refine ⟨fun hok => ?_, fun hne => ?_⟩
    · exact (hstep.trans hround).trans (congrArg _ (if_pos hok))
    · exact (hstep.trans hround).trans (congrArg _ (if_neg hne))

/-! ### DecodeSeq as a run -/

theorem run_succ {s t : State} (h : step s = .next t) (k : Nat) :
    Sys2Proof.core.run (k + 1) s = Sys2Proof.core.run k t := by
  have hcore : Sys2Proof.core.step s = .next t := h
  simp only [Host.Core.run, hcore]

theorem run_one {s t : State} (h : step s = .next t) : Sys2Proof.core.run 1 s = .next t :=
  run_succ h 0

/-- Settles O38, by induction on the bytes left: an OK round lists at least one of them, and no more than are left. -/
theorem decodeSeqEnds : Obligations.DecodeSeqEnds := by
  intro s c e l hp hle
  induction hn : e - c using Nat.strong_induction_on generalizing s c l with
  | _ n ih =>
    obtain ⟨hend, -, hround⟩ := decodeSeqFollowsIdec s c e l hp
    rcases Nat.lt_or_ge c e with hlt | hge
    · obtain ⟨win, draws, -, hround⟩ := hround hlt
      have hbounds := idec_len_bounds (c := s.config) (win := win) (avail := BitVec.ofNat 4 (min 10 (e - c)))
      rw [toNat_ofNat_min_ten] at hbounds
      generalize idec s.config win (BitVec.ofNat 4 (min 10 (e - c))) = r at hround hbounds
      obtain ⟨hok, hfail⟩ := hround
      by_cases hst : r.status = .ok
      · obtain ⟨hpos, hmax⟩ := hbounds hst
        obtain ⟨u, hstep, hphase, hreplies⟩ :
            ∃ u, step s = .next u ∧ u.phase = .decoding (c + r.len.toNat) e (l ++ [⟨c, r⟩]) ∧ u.replies = s.replies :=
          ⟨_, hok hst, rfl, rfl⟩
        obtain ⟨k, t, hk, hrun, hidle, hstop⟩ := ih _ (by omega) u _ _ hphase (by omega) rfl
        rw [hreplies] at hstop
        simp only [List.append_assoc, List.cons_append, List.nil_append] at hstop
        refine ⟨k + 1, t, by omega, (run_succ hstep k).trans hrun, hidle, ?_⟩
        rcases hstop with ⟨l', hreply, hsum⟩ | ⟨o, st, sl, l', hreply, hne, ho, ho'⟩
        · refine .inl ⟨⟨c, r⟩ :: l', hreply, ?_⟩
          rw [List.map_cons, List.sum_cons, hsum]
          show r.len.toNat + _ = _
          omega
        · exact .inr ⟨o, st, sl, ⟨c, r⟩ :: l', hreply, hne, by omega, ho'⟩
      · obtain ⟨u, hstep, hidle, hreplies⟩ :
            ∃ u, step s = .next u ∧ u.phase = .idle ∧ u.replies = s.replies ++ [.decodeFailed c r.status r.slot l] :=
          ⟨_, hfail hst, rfl, rfl⟩
        exact ⟨1, u, by omega, run_one hstep, hidle,
          .inr ⟨c, _, _, [], by rw [hreplies, List.append_nil], hst, le_rfl, hlt⟩⟩
    · exact ⟨1, _, by omega, run_one (hend hge), rfl, .inl ⟨[], by simp, by simp; omega⟩⟩

end Sys2Proof.Machine
end

section
/-! EncodeSeq's rounds (41_instruction_coder.md R149): each is IENC of the next value and its commit. -/

namespace Sys2Proof.Machine

open Sys2Proof.Statements

/-! ### The body of the loop -/

theorem encodeBody_of_error {x : Instruction} {p : List Instruction} {e c j : Nat} {s : State}
    (h : (ienc s.config x (BitVec.ofNat 4 (min 10 (e - c)))).status ≠ .ok) :
    encodeBody x p e c j s =
      .next (s.finish (.encodeFailed j (ienc s.config x (BitVec.ofNat 4 (min 10 (e - c)))).status
        (ienc s.config x (BitVec.ofNat 4 (min 10 (e - c)))).slot c)) :=
  if_pos h

theorem encodeBody_of_commit {x : Instruction} {p : List Instruction} {e c j : Nat} {s t : State}
    (h : (ienc s.config x (BitVec.ofNat 4 (min 10 (e - c)))).status = .ok)
    (ht : s.commit c (ienc s.config x (BitVec.ofNat 4 (min 10 (e - c)))) = some t) :
    encodeBody x p e c j s =
      .next (t.withPhase
        (.encoding p e (c + (ienc s.config x (BitVec.ofNat 4 (min 10 (e - c)))).len.toNat) (j + 1))) := by
  simp only [encodeBody, h, ht, ne_eq, not_true_eq_false, if_false]

theorem encodeBody_of_no_commit {x : Instruction} {p : List Instruction} {e c j : Nat} {s : State}
    (h : (ienc s.config x (BitVec.ofNat 4 (min 10 (e - c)))).status = .ok)
    (ht : s.commit c (ienc s.config x (BitVec.ofNat 4 (min 10 (e - c)))) = none) :
    encodeBody x p e c j s = .refused .commitOutsideBuffer := by
  simp only [encodeBody, h, ht, ne_eq, not_true_eq_false, if_false]

/-- A commit does not read the procedure's state. -/
theorem commit_withPhase (s : State) (q : Phase) (d : Nat) (r : IencOut) :
    (s.withPhase q).commit d r = (s.commit d r).map (·.withPhase q) := by
  by_cases h : inBuffer s.bufSize (enabledWrites d r) = true
  · rw [State.commit, State.commit, if_pos h, State.withPhase_bufSize, if_pos h]
    rfl
  · rw [State.commit, State.commit, if_neg h, State.withPhase_bufSize, if_neg h]
    rfl

/-- The body of the loop does not read the procedure's state. -/
theorem encodeBody_withPhase (x : Instruction) (p : List Instruction) (e c j : Nat) (s : State) (q : Phase) :
    encodeBody x p e c j (s.withPhase q) = encodeBody x p e c j s := by
  rcases encodeBody_cases x p e c j s with ⟨hne, hs⟩ | ⟨hok, hc, hs⟩ | ⟨hok, t, hc, hs⟩
  · rw [hs]
    exact encodeBody_of_error (s := s.withPhase q) hne
  · rw [hs]
    exact encodeBody_of_no_commit (s := s.withPhase q) hok
      ((commit_withPhase s q _ _).trans (congrArg (Option.map (·.withPhase q)) hc))
  · rw [hs]
    exact encodeBody_of_commit (s := s.withPhase q) (t := t.withPhase q) hok
      ((commit_withPhase s q _ _).trans (congrArg (Option.map (·.withPhase q)) hc))

/-- IENC does not read the values of absent slots: its result is that of the instruction the value spells (R143). -/
theorem ienc_toInstruction {c : Config} {x : Instruction} {i : Instr} (h : Instr.ofInstruction c x = .ok i)
    (cap : BitVec 4) : ienc c i.toInstruction cap = ienc c x cap := by
  obtain ⟨hcount, -, h1, -⟩ := ofInstruction_ok h
  have hi := ofInstruction_toInstruction hcount
  rcases Nat.lt_or_ge cap.toNat i.view.format.length with hcap | hcap
  · rw [ienc_of_no_room hi hcap, ienc_of_no_room h hcap]
  · have henables : enables c i.toInstruction = enables c x := funext fun k => by rw [enables, enables, h1]; rfl
    rw [ienc_of_room hi hcap, ienc_of_room h hcap, layout_of_ofInstruction hi, layout_of_ofInstruction h, henables]

/-- In EncodeSeq an instruction is the body of the loop for its own value. -/
theorem exec_encoding {s : State} {p : List Instruction} {e c j : Nat} (hp : s.phase = .encoding p e c j) (i : Instr) :
    exec i s = encodeBody i.toInstruction p e c j s := by
  rw [exec_eq_handle, handle_encoding hp]
  rfl

/-- IENC alone decides what the body of the loop does. -/
theorem encodeBody_congr {x y : Instruction} {s : State} (h : ∀ cap, ienc s.config y cap = ienc s.config x cap)
    (p : List Instruction) (e c j : Nat) : encodeBody y p e c j s = encodeBody x p e c j s := by
  unfold encodeBody
  rw [h]

/-- A round with an instruction to come is the body of the loop for it, whether it spells an instruction or not
(R149). -/
theorem encodeRound_cons (x : Instruction) (rest : List Instruction) (e c j : Nat) (s : State) :
    encodeRound (x :: rest) e c j s = encodeBody x rest e c j s := by
  cases h : Instr.ofInstruction s.config x with
  | error r =>
    have hr := ienc_of_ofInstruction_error (BitVec.ofNat 4 (min 10 (e - c))) h
    have hne := (validate_of_ofInstruction_error h).2
    rw [encodeBody_of_error (by rw [hr]; exact hne), hr]
    simp only [encodeRound, h]
    rfl
  | ok i =>
    have hexec : encodeRound (x :: rest) e c j s = exec i (s.withPhase (.encoding rest e c j)) := by
      simp only [encodeRound, h]
    rw [hexec, exec_encoding (State.withPhase_phase _ _), encodeBody_withPhase]
    exact encodeBody_congr (ienc_toInstruction h) rest e c j

theorem step_encoding_nil {s : State} {e c j : Nat} (hp : s.phase = .encoding [] e c j) :
    step s = .next (s.land.finish (.encodeDone c)) :=
  operate_encoding (s := s.land) hp

theorem step_encoding_cons {s : State} {x : Instruction} {xs : List Instruction} {e c j : Nat}
    (hp : s.phase = .encoding (x :: xs) e c j) : step s = encodeBody x xs e c j s.land :=
  (operate_encoding (s := s.land) hp).trans (encodeRound_cons x xs e c j s.land)

/-- Settles O37, by the body of the loop. -/
theorem encodeSeqFollowsIenc : Obligations.EncodeSeqFollowsIenc := by
  refine ⟨fun s xs base size ks hp hk => ?start, fun s e c j hp => ?stop, fun s x xs e c j hp => ?round⟩
  case start => exact step_idle_cons hp hk
  case stop => exact step_encoding_nil hp
  case round =>
    rw [step_encoding_cons hp]
    exact ⟨fun hne => encodeBody_of_error (s := s.land) hne,
      fun hok => ⟨fun t ht => encodeBody_of_commit (s := s.land) hok ht,
        fun hnone => encodeBody_of_no_commit (s := s.land) hok hnone⟩⟩

/-- In a region the buffer holds, no commit of the loop lies outside it. -/
theorem commit_in_region_ne_none {s : State} {e : Nat} (h : e ≤ s.bufSize) (x : Instruction) (c : Nat) :
    s.commit c (ienc s.config x (BitVec.ofNat 4 (min 10 (e - c)))) ≠ none := by
  intro hnone
  obtain ⟨p, hp, hout⟩ := commit_eq_none.1 hnone
  obtain ⟨k, hk, rfl⟩ := mem_enabledWrites.1 hp
  have hlt := ienc_we_lt_cap hk
  rw [toNat_ofNat_min_ten] at hlt
  have hout' : s.bufSize ≤ c + k.val := hout
  omega

/-- Settles O39, by induction on the instructions to come: each round stops or leaves one fewer. -/
theorem encodeSeqEnds : Obligations.EncodeSeqEnds := by
  intro s p e c j hp hbuf
  induction p generalizing s c j with
  | nil => exact ⟨1, _, le_rfl, run_one (step_encoding_nil hp), rfl, .inl ⟨c, rfl, le_rfl⟩⟩
  | cons x xs ih =>
    have hstep := step_encoding_cons hp
    rcases encodeBody_cases x xs e c j s.land with ⟨hne, hs⟩ | ⟨-, hnone, -⟩ | ⟨-, u, hu, hs⟩
    · refine ⟨1, _, by simp, run_one (hstep.trans hs), rfl, .inr ⟨j, _, _, c, rfl, hne, le_rfl, by simp, le_rfl⟩⟩
    · exact absurd hnone (commit_in_region_ne_none (s := s.land) hbuf x c)
    · obtain ⟨-, rfl⟩ := commit_eq_some hu
      obtain ⟨k, t, hk, hrun, hidle, hstop⟩ := ih (State.withPhase (State.withMem s.land _) _) _ _ rfl hbuf
      refine ⟨k + 1, t, by simpa using hk, (run_succ (hstep.trans hs) k).trans hrun, hidle, ?_⟩
      rcases hstop with ⟨c', hreply, hc'⟩ | ⟨j', st, sl, c', hreply, hne, hj, hj', hc'⟩
      · exact .inl ⟨c', hreply, by omega⟩
      · exact .inr ⟨j', st, sl, c', hreply, hne, by omega, by simp only [List.length_cons]; omega, by omega⟩

end Sys2Proof.Machine
end

section
/-! The rows of the opcode table, one by one (30_encoding.md R68): what `exec` of each does in DecodeSeq and as a single
IDEC (41_instruction_coder.md R144, R150), and in EncodeSeq (R143, R145, R149). -/

namespace Sys2Proof.Machine

open Sys2Proof.Statements

/-! ### Decoding -/

/-- The bits of a value that its field keeps. -/
def fieldBits (m : ConcreteMode) (v : BitVec 32) : BitVec 32 :=
  match m with
  | .constant8 => v &&& 0xFF
  | .constant16 => v &&& 0xFFFF
  | .constant32 => v
  | .absoluteAddress => v
  | .relativeAddress => v
  | .registerAddress => v &&& 0xFF
  | .register => v &&& 0xFF

/-- Truncation to a field masks the bits above it (R78). -/
theorem clip_eq_fieldBits (m : ConcreteMode) (v : BitVec 32) : m.clip v = fieldBits m v := by
  have hv := v.isLt
  have hmask8 := Nat.and_two_pow_sub_one_eq_mod v.toNat 8
  have hmask16 := Nat.and_two_pow_sub_one_eq_mod v.toNat 16
  apply BitVec.eq_of_toNat_eq
  rw [clip_toNat]
  cases m with
  | constant8 | registerAddress | register => simpa [fieldBits, ConcreteMode.width] using hmask8.symm
  | constant16 => simpa [fieldBits, ConcreteMode.width] using hmask16.symm
  | constant32 | absoluteAddress | relativeAddress => exact Nat.mod_eq_of_lt hv

/-- IDEC's result for a row, each value masked to its field. -/
def rowResult (w : View) : IdecOut :=
  okOut w.opcode (BitVec.ofNat 2 w.format.count.toNat) w.format.tag1
    (match w.format with
      | .f0 => 0
      | .f1 m => fieldBits m w.v1
      | .f2 m _ => fieldBits m w.v1)
    w.format.tag2
    (match w.format with
      | .f0 => 0
      | .f1 _ => 0
      | .f2 _ m => fieldBits m w.v2)
    (BitVec.ofNat 4 w.format.length)

theorem rowResult_eq (w : View) : rowResult w = decodedAs w.format w.opcode w.v1 w.v2 := by
  obtain ⟨f, o, v1, v2⟩ := w
  cases f with
  | f0 => rfl
  | f1 m => simp only [rowResult, okOut, decodedAs, Format.value1, Format.value2, clip_eq_fieldBits]
  | f2 m1 m2 => simp only [rowResult, okOut, decodedAs, Format.value1, Format.value2, clip_eq_fieldBits]

/-- Every row is decoded with its result, and nothing else changes. -/
theorem decodesAs_rowResult (i : Instr) : DecodesAs i (rowResult i.view) := by
  rw [rowResult_eq]
  refine ⟨fun s c e l hp => ?_, fun s hp => ?_⟩
  · rw [exec_eq_handle, handle_decoding hp, decodedAs_len_toNat]
    rfl
  · rw [exec_eq_handle, handle_idle hp]
    rfl

/-- Settles O22: the result is the row's. -/
theorem decodesF0 : Obligations.DecodesF0 :=
  fun o => decodesAs_rowResult (.f0 o)

/-- Settles O23: each row's stated result is `rowResult` of its parts. -/
theorem decodesF1 : Obligations.DecodesF1 := by
  intro o v1
  refine ⟨?_, ?_, ?_, ?_, ?_, ?_, ?_⟩ <;> exact decodesAs_rowResult _

/-- Settles O24: each row's stated result is `rowResult` of its parts. -/
theorem decodesF2NarrowConstant : Obligations.DecodesF2NarrowConstant := by
  intro o v1 v2
  refine ⟨?_, ?_, ?_, ?_, ?_, ?_, ?_, ?_, ?_, ?_, ?_, ?_, ?_, ?_⟩ <;> exact decodesAs_rowResult _

/-- Settles O25: each row's stated result is `rowResult` of its parts. -/
theorem decodesF2FourByte : Obligations.DecodesF2FourByte := by
  intro o v1 v2
  refine ⟨?_, ?_, ?_, ?_, ?_, ?_, ?_, ?_, ?_, ?_, ?_, ?_, ?_, ?_, ?_, ?_, ?_, ?_, ?_, ?_, ?_⟩ <;>
    exact decodesAs_rowResult _

/-- Settles O26: each row's stated result is `rowResult` of its parts. -/
theorem decodesF2Register : Obligations.DecodesF2Register := by
  intro o v1 v2
  refine ⟨?_, ?_, ?_, ?_, ?_, ?_, ?_, ?_, ?_, ?_, ?_, ?_, ?_, ?_⟩ <;> exact decodesAs_rowResult _

/-! ### Encoding -/

/-- IENC enables no byte beyond the instruction's length (R148). -/
theorem lt_length_of_enabled {c : Config} {x : Instruction} {i : Instr} {cap : BitVec 4}
    (h : Instr.ofInstruction c x = .ok i) (hcap : i.view.format.length ≤ cap.toNat) {k : Fin 10}
    (hk : (ienc c x cap).we[k] = true) : k.val < i.view.format.length := by
  rw [ienc_we_of_room h hcap, Bool.and_eq_true] at hk
  exact of_decide_eq_true hk.1

/-- Where the instruction fits the buffer, so does its commit (R46). -/
theorem ienc_writes_in_room {c : Config} {x : Instruction} {i : Instr} {cap : BitVec 4} {d size : Nat}
    (h : Instr.ofInstruction c x = .ok i) (hcap : i.view.format.length ≤ cap.toNat)
    (hsize : d + i.view.format.length ≤ size) : ∀ q ∈ enabledWrites d (ienc c x cap), q.1 < size := by
  intro q hq
  obtain ⟨k, hk, rfl⟩ := mem_enabledWrites.1 hq
  exact lt_of_lt_of_le (Nat.add_lt_add_left (lt_length_of_enabled h hcap hk) d) hsize

/-- The mode byte is left alone exactly where IENC does not enable it (R77, R145). -/
theorem leftAlone_iff {s : State} {i : Instr} {k : Nat} (hk : k < i.view.format.length) :
    LeftAlone s (encode i) k ↔ enables s.config i.toInstruction k = false := by
  by_cases h1 : k = 1
  · subst h1
    rw [LeftAlone, encode_getD_one ((one_lt_format_length_iff _).1 hk), hiNibble_packModes]
    simp [enables, Instr.toInstruction]
  · simp [LeftAlone, enables, h1]

/-- What the buffer holds after the commit of an instruction that fits `cap`: its encoding, but for a mode byte left
alone, and every other byte as before (R44, R145). -/
theorem read_commit_toInstruction {s t : State} {i : Instr} {cap : BitVec 4} {d : Nat} (hwf : s.mem.wf)
    (hcount : i.countOk s.config = true) (hcap : i.view.format.length ≤ cap.toNat)
    (hc : s.commit d (ienc s.config i.toInstruction cap) = some t) :
    (∀ k, k < i.view.format.length → ¬ LeftAlone s (encode i) k → t.mem.read (d + k) = (encode i).getD k 0) ∧
      (∀ k, LeftAlone s (encode i) k → t.mem.read (d + k) = s.mem.read (d + k)) ∧
      ∀ a, a < d ∨ d + i.view.format.length ≤ a → t.mem.read a = s.mem.read a := by
  have hi := ofInstruction_toInstruction hcount
  have hle := format_length_le i.view.format
  have hwe := ienc_we_of_room hi hcap
  refine ⟨fun k hk hleft => ?written, fun k hleft => ?left, fun a ha => ?outside⟩
  case written =>
    have hen := Bool.eq_true_of_not_eq_false (mt (leftAlone_iff hk).2 hleft)
    have hbyte : (ienc s.config i.toInstruction cap).we[(⟨k, by omega⟩ : Fin 10)] = true := by
      rw [hwe, hen, decide_eq_true hk]
      rfl
    exact ((commitWritesEnabledBytes s t d _ hwf hc).1 _ hbyte).trans (ienc_out_of_room hi hcap _)
  case left =>
    obtain rfl : k = 1 := hleft.2.1
    refine read_commit_of_byte_not_enabled hc (k := 1) ((hwe 1).trans ?_)
    by_cases hk : 1 < i.view.format.length
    · exact Bool.and_eq_false_iff.2 (.inr ((leftAlone_iff hk).1 hleft))
    · exact Bool.and_eq_false_iff.2 (.inl (decide_eq_false hk))
  case outside =>
    refine read_commit_of_not_enabled hc fun k hk => ?_
    have hlt := lt_length_of_enabled hi hcap hk
    omega

/-- Every row is committed as its encoding: in EncodeSeq, where it fits the region and the buffer (R44, R149). -/
theorem encodesAs_encode (i : Instr) : EncodesAs i i.view.opcode i.view.format.count (encode i) := by
  intro s p e c j hp hd hwf hregion hbuf
  rw [encode_length] at hregion hbuf ⊢
  have hcount := countOk_iff.2 hd
  have hi := ofInstruction_toInstruction hcount
  have hle := format_length_le i.view.format
  have hcap : i.view.format.length ≤ (BitVec.ofNat 4 (min 10 (e - c))).toNat := by
    rw [toNat_ofNat_min_ten]
    omega
  have hc := commit_of_inside (ienc_writes_in_room hi hcap hbuf)
  have hrun := (exec_encoding hp i).trans (encodeBody_of_commit (by rw [ienc_of_room hi hcap]; rfl) hc)
  rw [ienc_len_of_room hi hcap] at hrun
  obtain ⟨hwritten, hleft, houtside⟩ := read_commit_toInstruction hwf hcount hcap hc
  exact ⟨_, hrun, hwritten, hleft, houtside, rfl⟩

/-- Settles O27: the bytes are the row's encoding. -/
theorem encodesF0 : Obligations.EncodesF0 :=
  fun o => encodesAs_encode (.f0 o)

/-- Settles O28: each row's stated bytes are its encoding. -/
theorem encodesF1 : Obligations.EncodesF1 := by
  intro o v1
  refine ⟨?_, ?_, ?_, ?_, ?_, ?_, ?_⟩ <;> exact encodesAs_encode _

/-- Settles O29: each row's stated bytes are its encoding. -/
theorem encodesF2NarrowConstant : Obligations.EncodesF2NarrowConstant := by
  intro o v1 v2
  refine ⟨?_, ?_, ?_, ?_, ?_, ?_, ?_, ?_, ?_, ?_, ?_, ?_, ?_, ?_⟩ <;> exact encodesAs_encode _

/-- Settles O30: each row's stated bytes are its encoding. -/
theorem encodesF2FourByte : Obligations.EncodesF2FourByte := by
  intro o v1 v2
  refine ⟨?_, ?_, ?_, ?_, ?_, ?_, ?_, ?_, ?_, ?_, ?_, ?_, ?_, ?_, ?_, ?_, ?_, ?_, ?_, ?_, ?_⟩ <;>
    exact encodesAs_encode _

/-- Settles O31: each row's stated bytes are its encoding. -/
theorem encodesF2Register : Obligations.EncodesF2Register := by
  intro o v1 v2
  refine ⟨?_, ?_, ?_, ?_, ?_, ?_, ?_, ?_, ?_, ?_, ?_, ?_, ?_, ?_⟩ <;> exact encodesAs_encode _

/-- Settles O32: IENC of an instruction longer than the room left is CAPACITY. -/
theorem encodeStopsWithoutRoom : Obligations.EncodeStopsWithoutRoom := by
  intro i s p e c j hp hcount hroom
  have hpos := format_length_pos i.view.format
  have hcap : (BitVec.ofNat 4 (min 10 (e - c))).toNat < i.view.format.length := by
    rw [toNat_ofNat_min_ten]
    omega
  have hienc := ienc_of_no_room (ofInstruction_toInstruction hcount) hcap
  rw [exec_encoding hp, encodeBody_of_error (by rw [hienc]; simp [iencPorts]), hienc]
  rfl

end Sys2Proof.Machine
end

section
/-! EncodeSeq and then DecodeSeq (41_instruction_coder.md R146, R149, R150): the instructions laid out are listed
again. -/

namespace Sys2Proof.Machine

open Sys2Proof.Statements

/-! ### Runs -/

/-- Some number of steps leads from a state to another. -/
def Reaches (s t : State) : Prop :=
  ∃ k, Sys2Proof.core.run k s = .next t

theorem Reaches.refl (s : State) : Reaches s s :=
  ⟨0, rfl⟩

theorem Reaches.of_eq {s t : State} (h : s = t) : Reaches s t :=
  h ▸ Reaches.refl s

theorem Reaches.head {s t u : State} (h : step s = .next t) (htu : Reaches t u) : Reaches s u := by
  obtain ⟨k, hk⟩ := htu
  exact ⟨k + 1, (run_succ h k).trans hk⟩

theorem Reaches.of_step {s t : State} (h : step s = .next t) : Reaches s t :=
  (Reaches.refl t).head h

theorem Reaches.trans {s t u : State} (hst : Reaches s t) (htu : Reaches t u) : Reaches s u := by
  obtain ⟨k, hk⟩ := hst
  induction k generalizing s with
  | zero =>
    obtain rfl : s = t := Host.Outcome.next.inj hk
    exact htu
  | succ k ih =>
    cases hs : step s with
    | next v =>
      rw [run_succ hs] at hk
      exact (ih hk).head hs
    | fault r => cases r
    | refused r =>
      have hcore : Sys2Proof.core.step s = .refused r := hs
      simp only [Host.Core.run, hcore] at hk
      cases hk

/-! ### The bytes of a stretch of the buffer -/

/-- The `n` bytes of the buffer from an offset. -/
def Memory.slice (m : Memory) (a n : Nat) : List Byte :=
  (List.range n).map fun i => m.read (a + i)

theorem Memory.slice_append (m : Memory) (a n k : Nat) : m.slice a (n + k) = m.slice a n ++ m.slice (a + n) k := by
  simp [Memory.slice, List.range_add, Nat.add_assoc]

theorem Memory.take_slice (m : Memory) (a : Nat) {n k : Nat} (h : n ≤ k) : (m.slice a k).take n = m.slice a n := by
  obtain ⟨j, rfl⟩ := Nat.exists_eq_add_of_le h
  rw [Memory.slice_append, List.take_left' (by simp [Memory.slice])]

/-- A stretch that reads as given bytes is those bytes. -/
theorem Memory.slice_eq {m : Memory} {a : Nat} {bs : List Byte}
    (h : ∀ k, k < bs.length → m.read (a + k) = bs.getD k 0) : m.slice a bs.length = bs := by
  refine List.ext_getElem (by simp [Memory.slice]) fun k hk hk' => ?_
  simpa [Memory.slice, List.getD_eq_getElem?_getD, hk'] using h k hk'

theorem totalLength_cons (i : Instr) (is : List Instr) :
    totalLength (i :: is) = i.view.format.length + totalLength is :=
  rfl

/-- The instructions' encodings, laid end to end. -/
def encodings (is : List Instr) : List Byte :=
  is.flatMap encode

theorem encodings_cons (i : Instr) (is : List Instr) : encodings (i :: is) = encode i ++ encodings is :=
  rfl

/-! ### EncodeSeq -/

/-- Every update of the model keeps the buffer's canonical form. -/
theorem Updates.keeps_mem_wf {s t : State} (h : Updates s t) (hs : s.mem.wf) : t.mem.wf := by
  induction h with
  | refl => exact hs
  | land _ ih => exact landing_wf _ _ ih
  | present a n _ ih => exact (presented_mem _ a n).symm ▸ ih
  | commit _ hu ih =>
    obtain ⟨-, rfl⟩ := commit_eq_some hu
    exact Memory.writeAll_wf ih _
  | phase _ _ ih | take _ _ ih | reply _ _ ih | launch _ _ ih => exact ih

/-- A round of EncodeSeq with the gate off, nothing in flight and room for the instruction: its encoding stands at the
cursor, and what lies before is as it was. -/
theorem step_encodes {s : State} {i : Instr} {xs : List Instruction} {e c j : Nat}
    (hp : s.phase = .encoding (i.toInstruction :: xs) e c j) (hfl : s.inflight = []) (hwf : s.mem.wf)
    (hgate : s.config.legacyModeGate = false) (hcount : i.countOk s.config = true) (he : c + i.view.format.length ≤ e)
    (hbuf : e ≤ s.bufSize) :
    ∃ m : Memory, m.wf ∧
      step s = .next ((s.withMem m).withPhase (.encoding xs e (c + i.view.format.length) (j + 1))) ∧
      m.slice c i.view.format.length = encode i ∧ ∀ a < c, m.read a = s.mem.read a := by
  have hstep : step s = exec i (s.withPhase (.encoding xs e c j)) := by
    rw [step_encoding_cons hp, State.land_of_inflight_nil s hfl, exec_encoding (State.withPhase_phase _ _),
      encodeBody_withPhase]
  rw [← encode_length] at he ⊢
  obtain ⟨t, hrun, hwritten, -, hbefore, ht⟩ := encodesAs_encode i (s.withPhase (.encoding xs e c j)) xs e c j rfl
    (countOk_iff.1 hcount) hwf he (he.trans hbuf)
  have hnext := hstep.trans hrun
  refine ⟨t.mem, (step_updates hnext).keeps_mem_wf hwf, hnext.trans (congrArg _ ht), ?_,
    fun a ha => hbefore a (.inl ha)⟩
  refine Memory.slice_eq fun k hk => hwritten k hk fun hleft => ?_
  have hon : s.config.legacyModeGate = true := hleft.1
  rw [hgate] at hon
  cases hon

/-- EncodeSeq lays the encodings of its instructions end to end from the cursor, by induction on the instructions. -/
theorem encodeSeq_lays_out (is : List Instr) {s : State} {e c j : Nat}
    (hp : s.phase = .encoding (is.map Instr.toInstruction) e c j) (hfl : s.inflight = []) (hwf : s.mem.wf)
    (hgate : s.config.legacyModeGate = false) (hcount : ∀ i ∈ is, i.countOk s.config = true)
    (he : c + totalLength is ≤ e) (hbuf : e ≤ s.bufSize) :
    ∃ m : Memory,
      Reaches s ((s.withMem m).withPhase (.encoding [] e (c + totalLength is) (j + is.length))) ∧
      m.slice c (totalLength is) = encodings is ∧ ∀ a < c, m.read a = s.mem.read a := by
  induction is generalizing s c j with
  | nil =>
    exact ⟨s.mem, Reaches.of_eq (congrArg s.withPhase hp), rfl, fun _ _ => rfl⟩
  | cons i is ih =>
    rw [totalLength_cons] at he
    obtain ⟨m1, hwf1, hstep, hslice1, hbefore1⟩ :=
      step_encodes hp hfl hwf hgate (hcount i List.mem_cons_self) (by omega) hbuf
    obtain ⟨m, hreach, hslice, hbefore⟩ :=
      ih (s := (s.withMem m1).withPhase (.encoding _ e (c + i.view.format.length) (j + 1))) rfl hfl hwf1 hgate
        (fun k hk => hcount k (List.mem_cons_of_mem _ hk)) (by omega) hbuf
    refine ⟨m, ?_, ?_, fun a ha => (hbefore a (by omega)).trans (hbefore1 a ha)⟩
    · rw [totalLength_cons, ← Nat.add_assoc, List.length_cons, Nat.add_comm is.length, ← Nat.add_assoc]
      exact hreach.head hstep
    · have hkept : m.slice c i.view.format.length = m1.slice c i.view.format.length :=
        List.map_congr_left fun k hk => hbefore _ (by have := List.mem_range.1 hk; omega)
      rw [totalLength_cons, Memory.slice_append, hslice, hkept, hslice1, encodings_cons]

/-! ### DecodeSeq -/

/-- A round of DecodeSeq where the encoding of a well-formed instruction stands at the cursor, inside the walk and the
buffer: the instruction is listed. -/
theorem step_lists {s : State} {i : Instr} {rest : List Byte} {c e : Nat} {l : List Entry}
    (hp : s.phase = .decoding c e l) (hfl : s.inflight = []) (hwf : i.WellFormed s.config = true) (hbuf : e ≤ s.bufSize)
    (he : c + i.view.format.length ≤ e) (hbytes : s.mem.slice c (e - c) = encode i ++ rest) :
    step s = .next (s.withPhase (.decoding (c + i.view.format.length) e
      (l ++ [⟨c, decodedAs i.view.format i.view.opcode i.view.v1 i.view.v2⟩]))) := by
  obtain ⟨hcount, hfit⟩ := wellFormed_iff.1 hwf
  have hpos := format_length_pos i.view.format
  have hmax := format_length_le i.view.format
  have hin : c + min 10 (e - c) ≤ s.bufSize := by omega
  have hwindow : s.window c (min 10 (e - c)) = encode i ++ rest.take (min 10 (e - c) - (encode i).length) := by
    have hle : (encode i).length ≤ min 10 (e - c) := by
      rw [encode_length]
      omega
    have htake := Memory.take_slice s.mem c (Nat.min_le_right 10 (e - c))
    rw [hbytes, List.take_append, List.take_of_length_le hle] at htake
    exact (window_of_inside hin).trans htake.symm
  have hdec : decode s.config (s.window c (min 10 (e - c))) =
      .ok (i, rest.take (min 10 (e - c) - (encode i).length)) := by
    rw [hwindow, decode_encode_append hcount, clipped_of_valuesFit hfit]
  rw [step_decoding hp, State.land_of_inflight_nil s hfl, decodeRound_of_decode (by omega) hdec,
    presented_of_inside hin, exec_eq_handle, handle_decoding hp]

/-- DecodeSeq lists the well-formed instructions whose encodings stand end to end from its cursor to its end, by induction
on them. -/
theorem decodeSeq_lists (is : List Instr) {s : State} {c e : Nat} {l : List Entry} (hp : s.phase = .decoding c e l)
    (hfl : s.inflight = []) (hwf : ∀ i ∈ is, i.WellFormed s.config = true) (hbuf : e ≤ s.bufSize)
    (he : e = c + totalLength is) (hbytes : s.mem.slice c (totalLength is) = encodings is) :
    Reaches s (s.withPhase (.decoding e e (l ++ listingOf c is))) := by
  induction is generalizing s c l with
  | nil =>
    obtain rfl : e = c := he
    rw [listingOf, List.append_nil]
    exact Reaches.of_eq (congrArg s.withPhase hp)
  | cons i is ih =>
    rw [totalLength_cons] at he hbytes
    rw [encodings_cons] at hbytes
    have hstep := step_lists (rest := encodings is) hp hfl (hwf i List.mem_cons_self) hbuf (by omega)
      (by rw [← hbytes]; congr 1; omega)
    rw [Memory.slice_append] at hbytes
    have hrest := List.append_inj_right hbytes (by simp [Memory.slice, encode_length])
    have hreach := ih (s := s.withPhase (.decoding (c + i.view.format.length) e
      (l ++ [⟨c, decodedAs i.view.format i.view.opcode i.view.v1 i.view.v2⟩]))) rfl hfl
      (fun k hk => hwf k (List.mem_cons_of_mem _ hk)) hbuf (by omega) hrest
    rw [List.append_assoc] at hreach
    exact hreach.head hstep

/-! ### The two calls -/

theorem step_encoding_done {s : State} {e c j : Nat} (hp : s.phase = .encoding [] e c j) (hfl : s.inflight = []) :
    step s = .next (s.finish (.encodeDone c)) := by
  rw [step_encoding_nil hp, State.land_of_inflight_nil s hfl]

theorem step_decoding_done {s : State} {e : Nat} {l : List Entry} (hp : s.phase = .decoding e e l)
    (hfl : s.inflight = []) : step s = .next (s.finish (.decodeDone l)) := by
  rw [step_decoding hp, State.land_of_inflight_nil s hfl, decodeRound_of_end le_rfl]

/-- An EncodeSeq call of instructions that fit its region: their encodings stand end to end from its base when it is
done. -/
theorem encodeSeq_call {s : State} {is : List Instr} {base size : Nat} {ks : List Call} (hidle : s.phase = .idle)
    (hcalls : s.calls = .encodeSeq (is.map Instr.toInstruction) base size :: ks) (hfl : s.inflight = [])
    (hwf : s.mem.wf) (hgate : s.config.legacyModeGate = false) (hcount : ∀ i ∈ is, i.countOk s.config = true)
    (hsize : totalLength is ≤ size) (hbuf : base + size ≤ s.bufSize) :
    ∃ m : Memory,
      Reaches s (((s.withCalls ks).withMem m).finish (.encodeDone (base + totalLength is))) ∧
      m.slice base (totalLength is) = encodings is := by
  have hstart : step s =
      .next ((s.withCalls ks).withPhase (.encoding (is.map Instr.toInstruction) (base + size) base 1)) := by
    rw [step_idle_cons hidle hcalls, State.land_of_inflight_nil s hfl]
    rfl
  obtain ⟨m, hrounds, hbytes, -⟩ :=
    encodeSeq_lays_out is
      (s := (s.withCalls ks).withPhase (.encoding (is.map Instr.toInstruction) (base + size) base 1))
      rfl hfl hwf hgate hcount (by omega) hbuf
  exact ⟨m, (hrounds.head hstart).trans (Reaches.of_step (step_encoding_done rfl hfl)), hbytes⟩

/-- A DecodeSeq call over the encodings of well-formed instructions lists them. -/
theorem decodeSeq_call {s : State} {is : List Instr} {base : Nat} {ks : List Call} (hidle : s.phase = .idle)
    (hcalls : s.calls = .decodeSeq base (base + totalLength is) :: ks) (hfl : s.inflight = [])
    (hwf : ∀ i ∈ is, i.WellFormed s.config = true) (hbuf : base + totalLength is ≤ s.bufSize)
    (hbytes : s.mem.slice base (totalLength is) = encodings is) :
    Reaches s ((s.withCalls ks).finish (.decodeDone (listingOf base is))) := by
  have hstart : step s = .next ((s.withCalls ks).withPhase (.decoding base (base + totalLength is) [])) := by
    rw [step_idle_cons hidle hcalls, State.land_of_inflight_nil s hfl]
    rfl
  have hrounds := decodeSeq_lists is (s := (s.withCalls ks).withPhase (.decoding base (base + totalLength is) []))
    rfl hfl hwf hbuf rfl hbytes
  exact (hrounds.head hstart).trans (Reaches.of_step (step_decoding_done rfl hfl))

/-- Settles O40: EncodeSeq lays the encodings end to end, and DecodeSeq over that stretch lists the instructions. -/
theorem encodeSeqThenDecodeSeqListsThem : Obligations.EncodeSeqThenDecodeSeqListsThem := by
  intro s is base size hidle hfl hwf hgate hall hsize hbuf hcalls
  have hcount : ∀ i ∈ is, i.countOk s.config = true := fun i hi => (wellFormed_iff.1 (hall i hi)).1
  obtain ⟨m, hencode, hbytes⟩ := encodeSeq_call hidle hcalls hfl hwf hgate hcount hsize hbuf
  have hdecode := decodeSeq_call (s := ((s.withCalls [_]).withMem m).finish (.encodeDone (base + totalLength is)))
    (base := base) rfl rfl hfl hall (le_trans (by omega) hbuf) hbytes
  obtain ⟨k, hrun⟩ := hencode.trans hdecode
  exact ⟨k, _, hrun, rfl, rfl, by simp⟩

end Sys2Proof.Machine
end

section
/-! The text form (42_text_form.md R191 to R200): `hex` spells its number, and PFMT and IFMT form by form. -/

namespace Sys2Proof.Machine

open Sys2Proof.Statements

/-! ### The digits of a number (R191) -/

/-- A number with one more base-16 digit after its digits. -/
def withDigit (n : Nat) (ch : Char) : Nat :=
  16 * n + digitValue ch

theorem hexValue_eq_foldl (t : Text) : hexValue t = t.foldl withDigit 0 := rfl

theorem digitValue_hexDigit {d : Nat} (h : d < 16) : digitValue (hexDigit d) = d := by
  revert d
  decide

theorem withDigit_hexDigit (n : Nat) {d : Nat} (h : d < 16) : withDigit n (hexDigit d) = 16 * n + d := by
  rw [withDigit, digitValue_hexDigit h]

theorem hexDigit_ne_zero {d : Nat} (hpos : 0 < d) (h : d < 16) : hexDigit d ≠ '0' := by
  intro heq
  have hval := digitValue_hexDigit h
  rw [heq] at hval
  exact hpos.ne hval

theorem hexDigits_of_lt (fuel : Nat) {n : Nat} (acc : Text) (h : n < 16) :
    hexDigits (fuel + 1) n acc = hexDigit n :: acc := by
  rw [hexDigits, if_pos h]

theorem hexDigits_of_le (fuel : Nat) {n : Nat} (acc : Text) (h : 16 ≤ n) :
    hexDigits (fuel + 1) n acc = hexDigits fuel (n / 16) (hexDigit (n % 16) :: acc) := by
  rw [hexDigits, if_neg h.not_gt]

/-- Digits put before a text spell their number as far as that text. The last digit is laid down first, so the induction is
over every text that follows. -/
theorem hexValue_hexDigits {fuel n : Nat} (h : n < 16 ^ fuel) (acc : Text) :
    hexValue (hexDigits fuel n acc) = acc.foldl withDigit n := by
  induction fuel generalizing n acc with
  | zero =>
    obtain rfl : n = 0 := Nat.lt_one_iff.1 h
    rfl
  | succ fuel ih =>
    rcases Nat.lt_or_ge n 16 with hn | hn
    · rw [hexDigits_of_lt fuel acc hn, hexValue_eq_foldl, List.foldl_cons, withDigit_hexDigit 0 hn, Nat.mul_zero,
        Nat.zero_add]
    · have hquot : n / 16 < 16 ^ fuel := Nat.div_lt_of_lt_mul (by rwa [← pow_succ'])
      rw [hexDigits_of_le fuel acc hn, ih hquot, List.foldl_cons, withDigit_hexDigit _ (n.mod_lt (by decide)),
        Nat.div_add_mod]

theorem digitValue_lt_of_mem_hexDigits (fuel n : Nat) {acc : Text} (hacc : ∀ ch ∈ acc, digitValue ch < 16) :
    ∀ ch ∈ hexDigits fuel n acc, digitValue ch < 16 := by
  induction fuel generalizing n acc with
  | zero => exact hacc
  | succ fuel ih =>
    have hcons {d : Nat} (hd : d < 16) : ∀ ch ∈ hexDigit d :: acc, digitValue ch < 16 :=
      List.forall_mem_cons.2 ⟨(digitValue_hexDigit hd).trans_lt hd, hacc⟩
    rcases Nat.lt_or_ge n 16 with hn | hn
    · rw [hexDigits_of_lt fuel acc hn]
      exact hcons hn
    · rw [hexDigits_of_le fuel acc hn]
      exact ih _ (hcons (n.mod_lt (by decide)))

/-- The first digit of a number other than 0 is not 0: a quotient is only taken of a number of at least two digits. -/
theorem head?_hexDigits {fuel n : Nat} (h : n < 16 ^ fuel) (hn0 : n ≠ 0) (acc : Text) :
    ∃ d, 0 < d ∧ d < 16 ∧ (hexDigits fuel n acc).head? = some (hexDigit d) := by
  induction fuel generalizing n acc with
  | zero => exact absurd (Nat.lt_one_iff.1 h) hn0
  | succ fuel ih =>
    rcases Nat.lt_or_ge n 16 with hn | hn
    · exact ⟨n, Nat.pos_of_ne_zero hn0, hn, by rw [hexDigits_of_lt fuel acc hn, List.head?_cons]⟩
    · rw [hexDigits_of_le fuel acc hn]
      exact ih (Nat.div_lt_of_lt_mul (by rwa [← pow_succ'])) (Nat.div_pos hn (by decide)).ne' _

theorem hex_zero : hex 0 = ['0'] := rfl

theorem head?_hex_ne_zero {n : Nat} (h : n < 2 ^ 32) (hn0 : n ≠ 0) : (hex n).head? ≠ some '0' := by
  obtain ⟨d, hpos, hd, hhead⟩ := head?_hexDigits (fuel := 8) h hn0 []
  rw [hex, hhead]
  exact fun heq => hexDigit_ne_zero hpos hd (Option.some.inj heq)

theorem hex_ne_nil {n : Nat} (h : n < 2 ^ 32) : hex n ≠ [] := by
  by_cases hn0 : n = 0
  · rw [hn0, hex_zero]
    exact List.cons_ne_nil _ _
  · obtain ⟨d, -, -, hhead⟩ := head?_hexDigits (fuel := 8) h hn0 []
    intro hnil
    rw [← hex, hnil] at hhead
    cases hhead

/-- Settles O48: each part is the same fact about the digits laid down with 8 rounds of fuel, which 2^32 = 16^8 needs. -/
theorem hexSpellsTheNumber : Obligations.HexSpellsTheNumber := fun n h =>
  ⟨hexValue_hexDigits (fuel := 8) h [], digitValue_lt_of_mem_hexDigits 8 n (List.forall_mem_nil _), hex_ne_nil h,
    head?_hex_ne_zero h, fun hn0 => hn0 ▸ hex_zero⟩

/-! ### Parameters (R192 to R198) -/

theorem regname_of_named {c : Config} {v : BitVec 32} {name : Text} (h : c.regName.lookup v = some name) :
    regname c v = name := by
  rw [regname, h, Option.getD_some]

theorem regname_of_unnamed {c : Config} {v : BitVec 32} (h : c.regName.lookup v = none) :
    regname c v = braced v.toNat := by
  rw [regname, h, Option.getD_none]

theorem pfmt_registerAddress (c : Config) (v : BitVec 32) : pfmt c ⟨5, v⟩ = '@' :: regname c v := rfl

theorem pfmt_register (c : Config) (v : BitVec 32) : pfmt c ⟨6, v⟩ = regname c v := rfl

theorem pfmt_of_not_concrete (c : Config) {t : BitVec 4} (h : 7 ≤ t.toNat) (v : BitVec 32) :
    pfmt c ⟨t, v⟩ = braced v.toNat := by
  simp only [pfmt, ofTag_eq_none.2 h]

theorem s32_of_lt {v : BitVec 32} (h : v.toNat < 2 ^ 31) : s32 v = v.toNat := by
  rw [s32, if_pos h]

theorem s32_of_le {v : BitVec 32} (h : 2 ^ 31 ≤ v.toNat) : s32 v = -((2 ^ 32 - v.toNat : Nat) : Int) := by
  rw [s32, if_neg h.not_gt]
  have := v.isLt
  omega

theorem pfmt_relativeAddress (c : Config) (v : BitVec 32) :
    pfmt c ⟨4, v⟩ = if s32 v < 0 then '$' :: '-' :: hex (-(s32 v)).toNat else '$' :: hex (s32 v).toNat := rfl

/-- An offset that is not negative (R194). -/
theorem pfmt_relativeAddress_of_lt (c : Config) {v : BitVec 32} (h : v.toNat < 2 ^ 31) :
    pfmt c ⟨4, v⟩ = '$' :: hex v.toNat := by
  rw [pfmt_relativeAddress, s32_of_lt h, if_neg (Int.natCast_nonneg _).not_gt, Int.toNat_natCast]

/-- A negative offset: its magnitude is a natural number, 2^31 included (R194). -/
theorem pfmt_relativeAddress_of_le (c : Config) {v : BitVec 32} (h : 2 ^ 31 ≤ v.toNat) :
    pfmt c ⟨4, v⟩ = '$' :: '-' :: hex (2 ^ 32 - v.toNat) := by
  have hneg : s32 v < 0 := by
    rw [s32_of_le h]
    have := v.isLt
    omega
  rw [pfmt_relativeAddress, if_pos hneg, s32_of_le h, Int.neg_neg, Int.toNat_natCast]

/-- Settles O49, form by form: the sign of a relative offset, the name of a register, and no concrete mode for the other
tags. -/
theorem pfmtForms : Obligations.PfmtForms := by
  intro c v
  refine ⟨rfl, rfl, rfl, rfl, pfmt_relativeAddress_of_lt c, pfmt_relativeAddress_of_le c, ?named, ?unnamed, ?other⟩
  case named =>
    intro name h
    rw [pfmt_registerAddress, pfmt_register, regname_of_named h]
    exact ⟨rfl, rfl⟩
  case unnamed =>
    intro h
    rw [pfmt_registerAddress, pfmt_register, regname_of_unnamed h]
    exact ⟨rfl, rfl⟩
  case other => exact fun t h => pfmt_of_not_concrete c h v

/-! ### Instructions (R199, R200) -/

theorem mnemonicText_of_named {c : Config} {o : BitVec 8} {name : Text} (h : c.mnemonic.lookup o = some name) :
    mnemonicText c o = name := by
  rw [mnemonicText, h, Option.getD_some]

theorem mnemonicText_of_unnamed {c : Config} {o : BitVec 8} (h : c.mnemonic.lookup o = none) :
    mnemonicText c o = braced o.toNat := by
  rw [mnemonicText, h, Option.getD_none]

theorem ifmt_of_undefined {c : Config} {x : Instruction} (h : c.declared x.opcode = none) :
    ifmt c x = braced x.opcode.toNat ++ ['\n'] := by
  simp only [ifmt, h]

theorem ifmt_of_zero {c : Config} {x : Instruction} (h : c.declared x.opcode = some .zero) :
    ifmt c x = mnemonicText c x.opcode ++ ['\n'] := by
  simp [ifmt, h, ParamCount.toNat]

theorem ifmt_of_one {c : Config} {x : Instruction} (h : c.declared x.opcode = some .one) :
    ifmt c x = mnemonicText c x.opcode ++ [' '] ++ pfmt c x.p1 ++ ['\n'] := by
  simp [ifmt, h, ParamCount.toNat]

theorem ifmt_of_two {c : Config} {x : Instruction} (h : c.declared x.opcode = some .two) :
    ifmt c x = mnemonicText c x.opcode ++ [' '] ++ pfmt c x.p1 ++ [' '] ++ pfmt c x.p2 ++ ['\n'] := by
  simp [ifmt, h, ParamCount.toNat]

/-- Settles O50, count by count, from what IFMT shows for an opcode with a name and for one without. -/
theorem ifmtForms : Obligations.IfmtForms := by
  intro c x shown
  have hshown : mnemonicText c x.opcode = shown := by
    unfold shown
    split
    next name hname => exact mnemonicText_of_named hname
    next hname => exact mnemonicText_of_unnamed hname
  rw [← hshown]
  refine ⟨fun h => ?_, ifmt_of_zero, ifmt_of_one, ifmt_of_two⟩
  rw [ifmt_of_undefined h, braced]
  simp

end Sys2Proof.Machine
end

section
/-! What the statuses say (60_exceptions.md R221 to R224): their port codes, which operation can return which, and that
IENC writes nothing on an error. -/

namespace Sys2Proof.Machine

/-! ### The codes (R21, R221) -/

/-- Settles O51, code by code. -/
theorem statusAndSlotCodes : Obligations.StatusAndSlotCodes :=
  ⟨rfl, rfl, rfl, rfl, rfl, rfl, rfl, rfl, rfl, rfl⟩

/-! ### An error writes nothing (R224) -/

/-- IENC lays out no byte with a status that is not OK. -/
theorem ienc_of_not_ok {c : Config} {x : Instruction} {cap : BitVec 4} (h : (ienc c x cap).status ≠ .ok) :
    ∃ st sl n, ienc c x cap = iencPorts st sl n [] := by
  rcases ienc_cases c x cap with ⟨r, -, -, hr⟩ | ⟨i, -, -, hi⟩ | ⟨i, -, -, hi⟩
  · exact ⟨_, _, _, hr⟩
  · exact ⟨_, _, _, hi⟩
  · rw [hi] at h
    exact absurd rfl h

/-- With no byte enabled there is no byte to write. -/
theorem enabledWrites_of_none_enabled {r : IencOut} (h : ∀ k : Fin 10, r.we[k] = false) (d : Nat) :
    enabledWrites d r = [] := by
  refine List.eq_nil_iff_forall_not_mem.2 fun p hp => ?_
  obtain ⟨k, hk, -⟩ := mem_enabledWrites.1 hp
  rw [h k] at hk
  cases hk

/-- With no byte enabled the commit takes place at every base, also outside the buffer, and changes nothing. -/
theorem commit_of_none_enabled {r : IencOut} (h : ∀ k : Fin 10, r.we[k] = false) (s : State) (d : Nat) :
    s.commit d r = some s := by
  have hnil := enabledWrites_of_none_enabled h d
  rw [commit_of_inside (by simp [hnil]), hnil]
  rfl

/-- Settles O8: an error lays out no byte, so it enables none, and a commit that writes no byte changes nothing. -/
theorem iencErrorWritesNothing : Obligations.IencErrorWritesNothing := by
  intro c x cap h
  have hwe : ∀ k : Fin 10, (ienc c x cap).we[k] = false := by
    obtain ⟨st, sl, n, hports⟩ := ienc_of_not_ok h
    rw [hports]
    exact iencPorts_nil_we st sl n
  exact ⟨hwe, commit_of_none_enabled hwe⟩

/-! ### The statuses of each operation (R222) -/

/-- The statuses VALIDATE can report. -/
theorem validate_status_cases (c : Config) (o : BitVec 8) (m1 m2 : BitVec 4) (fin : Bool) :
    (validate c o m1 m2 fin).status ∈
      [Status.ok, .undefinedOpcode, .unknownMode, .absentModeNonzero, .unresolvedLabel] := by
  cases h : c.declared o with
  | none => simp [validate_of_undefined h]
  | some pc =>
    cases pc with
    | zero => rw [validate_of_zero h]; split_ifs <;> simp
    | one => rw [validate_of_one h]; split_ifs <;> simp
    | two => rw [validate_of_two h]; split_ifs <;> simp

theorem validate_ne_capacity (c : Config) (o : BitVec 8) (m1 m2 : BitVec 4) (fin : Bool) :
    (validate c o m1 m2 fin).status ≠ .capacity :=
  ne_of_mem_of_not_mem (validate_status_cases c o m1 m2 fin) (by decide)

theorem validate_ne_truncated (c : Config) (o : BitVec 8) (m1 m2 : BitVec 4) (fin : Bool) :
    (validate c o m1 m2 fin).status ≠ .truncated :=
  ne_of_mem_of_not_mem (validate_status_cases c o m1 m2 fin) (by decide)

/-- IENC adds CAPACITY to what VALIDATE reports for emission. -/
theorem ienc_status_cases (c : Config) (x : Instruction) (cap : BitVec 4) :
    (ienc c x cap).status = (validate c x.opcode x.p1.mode x.p2.mode true).status ∨
      (ienc c x cap).status = .capacity := by
  obtain ⟨-, hrefused, haccepted⟩ := iencStatusOrder c x cap
  by_cases hv : (validate c x.opcode x.p1.mode x.p2.mode true).status = .ok
  · obtain ⟨hshort, hfits⟩ := haccepted hv
    rcases Nat.lt_or_ge cap.toNat (ienc c x cap).len.toNat with hcap | hcap
    · exact .inr (hshort hcap).1
    · exact .inl ((hfits hcap).1.trans hv.symm)
  · exact .inl (hrefused hv).1

/-- IDEC's last two checks add TRUNCATED to what VALIDATE reports for emission (R144, D4 and D5). -/
theorem idecFields_status_cases (c : Config) (win : Vector Byte 10) (avail : BitVec 4) (o : BitVec 8) (pc : ParamCount)
    (m1 m2 : BitVec 4) :
    (idecFields c win avail o pc m1 m2).status = (validate c o m1 m2 true).status ∨
      (idecFields c win avail o pc m1 m2).status = .truncated := by
  by_cases hv : (validate c o m1 m2 true).status = .ok
  · rcases Nat.lt_or_ge avail.toNat (len c o m1 m2).len.toNat with hlen | hlen
    · exact .inr (congrArg IdecOut.status (idecFields_of_short hv hlen))
    · exact .inl ((idecFields_status_of_enough hv hlen).trans hv.symm)
  · exact .inl (congrArg IdecOut.status (idecFields_of_refused hv))

/-- IDEC adds TRUNCATED to what VALIDATE reports for emission of the opcode byte and some mode tags. -/
theorem idec_status_cases (c : Config) (win : Vector Byte 10) (avail : BitVec 4) :
    (∃ m1 m2, (idec c win avail).status = (validate c win[0] m1 m2 true).status) ∨
      (idec c win avail).status = .truncated := by
  rcases Nat.lt_or_ge avail.toNat 1 with h1 | h1
  · exact .inr (congrArg IdecOut.status (idec_of_nothing_presented c win h1))
  cases hd : c.declared win[0] with
  | none => exact .inl ⟨0, 0, by rw [idec_of_undefined h1 hd, validate_of_undefined hd]; rfl⟩
  | some pc =>
    by_cases hpc : pc = .zero
    · subst hpc
      rw [idec_of_zero h1 hd]
      exact (idecFields_status_cases ..).imp_left fun h => ⟨_, _, h⟩
    · rcases Nat.lt_or_ge avail.toNat 2 with h2 | h2
      · exact .inr (congrArg IdecOut.status (idec_of_mode_missing (by omega) hd hpc))
      · rw [idec_of_modes h2 hd hpc]
        exact (idecFields_status_cases ..).imp_left fun h => ⟨_, _, h⟩

theorem ienc_ne_truncated (c : Config) (x : Instruction) (cap : BitVec 4) : (ienc c x cap).status ≠ .truncated := by
  rcases ienc_status_cases c x cap with h | h <;> rw [h]
  · exact validate_ne_truncated c x.opcode x.p1.mode x.p2.mode true
  · decide

theorem idec_ne_capacity (c : Config) (win : Vector Byte 10) (avail : BitVec 4) :
    (idec c win avail).status ≠ .capacity := by
  rcases idec_status_cases c win avail with ⟨m1, m2, h⟩ | h <;> rw [h]
  · exact validate_ne_capacity c win[0] m1 m2 true
  · decide

/-- Settles O17: LEN reports what VALIDATE reports for sizing; IENC and IDEC each add one status to what it reports for
emission. -/
theorem statusesPerOperation : Obligations.StatusesPerOperation := by
  intro c o m1 m2 fin x cap avail win
  rw [len_status]
  exact ⟨validate_ne_capacity c o m1 m2 fin, validate_ne_truncated c o m1 m2 fin,
    validate_false_ne_unresolvedLabel c o m1 m2, validate_false_ne_unresolvedLabel c o m1 m2,
    validate_ne_capacity c o m1 m2 false, validate_ne_truncated c o m1 m2 false,
    ienc_ne_truncated c x cap, idec_ne_capacity c win avail⟩

end Sys2Proof.Machine
end

section
/-! Which steps stop (70_reset_and_hazards.md R253, R260): only one whose commit lies outside the buffer, and none under the
callers' duty. -/

namespace Sys2Proof.Machine

/-! ### A commit outside the buffer (R46, R253) -/

/-- An enabled byte outside the buffer leaves the result without a commit. -/
theorem commit_of_enabled_outside {s : State} {d : Nat} {r : IencOut} {k : Fin 10} (hwe : r.we[k] = true)
    (hout : s.bufSize ≤ d + k.val) : s.commit d r = none :=
  commit_eq_none.2 ⟨_, enabledWrite_mem d hwe, hout⟩

/-- No instruction ends with its mode byte, the one byte the legacy gate can leave out (R71, R145). -/
theorem format_length_ne_two (f : Format) : f.length ≠ 2 := by
  cases f with
  | f0 => decide
  | f1 m =>
    have := width_pos m
    simp only [Format.length]
    omega
  | f2 m1 m2 =>
    have := width_pos m1
    simp only [Format.length]
    omega

/-- IENC enables the last byte of an instruction that fits `cap`, under either setting of the gate. -/
theorem ienc_enables_last {c : Config} {x : Instruction} {i : Instr} {cap : BitVec 4}
    (h : Instr.ofInstruction c x = .ok i) (hcap : i.view.format.length ≤ cap.toNat) {k : Fin 10}
    (hk : k.val + 1 = i.view.format.length) : (ienc c x cap).we[k] = true := by
  have hne := format_length_ne_two i.view.format
  rw [ienc_we_of_room h hcap, enables_of_ne_one c x (by omega), decide_eq_true (by omega)]
  rfl

/-- Settles O33: the last byte of the instruction is enabled and lies outside the buffer. -/
theorem encodePastBufferIsRefused : Obligations.EncodePastBufferIsRefused := by
  intro i s p e c j hp hcount hregion hbuf
  have hpos := format_length_pos i.view.format
  have hle := format_length_le i.view.format
  have hi := ofInstruction_toInstruction hcount
  have hcap : i.view.format.length ≤ (BitVec.ofNat 4 (min 10 (e - c))).toNat := by
    rw [toNat_ofNat_min_ten]
    omega
  have hlast := ienc_enables_last hi hcap (k := ⟨i.view.format.length - 1, by omega⟩) (Nat.sub_add_cancel hpos)
  have hout : s.bufSize ≤ c + (i.view.format.length - 1) := by omega
  rw [exec_encoding hp]
  exact encodeBody_of_no_commit (by rw [ienc_of_room hi hcap]; rfl) (commit_of_enabled_outside hlast hout)

/-- Settles O34: IENC enables bytes below `cap` only, and one enabled byte outside refuses the commit. -/
theorem honestCapStaysInBuffer : Obligations.HonestCapStaysInBuffer :=
  ⟨fun _ _ _ _ _ hcap => inBuffer_iff.2 (ienc_writes_inside hcap),
    fun _ _ _ _ hwe hout => commit_of_enabled_outside hwe hout⟩

/-! ### What one operation can do -/

/-- Another caller's commit, where it has no step (R253). -/
theorem performOtherCommit_of_no_commit {s : State} {x : Instruction} {cap : BitVec 4} {d : Nat}
    (h : s.commit d (ienc s.config x cap) = none) : performOtherCommit x cap d s = .refused .commitOutsideBuffer := by
  obtain ⟨q, hq, hout⟩ := commit_eq_none.1 h
  exact if_neg fun hin => Nat.not_lt.2 hout (inBuffer_iff.1 hin q hq)

/-- IDEC as a single operation is answered, whatever the bytes (R144). -/
theorem performIdec_answers {s : State} (hp : s.phase = .idle) (bytes : List Byte) :
    ∃ r, performIdec bytes s = .next (s.reply r) := by
  rcases performIdec_cases bytes s with ⟨i, rest, -, hrun⟩ | ⟨r, -, hrun⟩
  · exact ⟨_, hrun.trans ((exec_eq_handle i s).trans (handle_idle hp ..))⟩
  · exact ⟨_, hrun⟩

/-- The procedure a call leaves in progress. -/
def Call.opens : Call → Phase
  | .encodeSeq xs base size => .encoding xs (base + size) base 1
  | .decodeSeq base limit => .decoding base limit []
  | _ => .idle

/-- A call with a commit whose result has no commit in the buffer. -/
def Call.CommitsOutside (k : Call) (s : State) : Prop :=
  ∃ x cap d, (k = .iencCommit x cap d ∨ k = .otherCommit x cap d) ∧ s.commit d (Machine.ienc s.config x cap) = none

/-- Everything a call can lead to: a next state with the procedure the call opens, or the refusal of its commit. -/
theorem perform_cases (k : Call) {s : State} (hp : s.phase = .idle) :
    (∃ t, perform k s = .next t ∧ t.phase = k.opens) ∨
      (k.CommitsOutside s ∧ perform k s = .refused .commitOutsideBuffer) := by
  cases k with
  | iencCommit x cap d =>
    cases hc : s.commit d (ienc s.config x cap) with
    | none => exact .inr ⟨⟨x, cap, d, .inl rfl, hc⟩, performCommit_of_no_commit hc⟩
    | some t =>
      obtain ⟨-, rfl⟩ := commit_eq_some hc
      exact .inl ⟨_, performCommit_of_commit hc, hp⟩
  | otherCommit x cap d =>
    cases hc : s.commit d (ienc s.config x cap) with
    | none => exact .inr ⟨⟨x, cap, d, .inr rfl, hc⟩, performOtherCommit_of_no_commit hc⟩
    | some t =>
      obtain ⟨hin, -⟩ := commit_eq_some hc
      exact .inl ⟨_, performOtherCommit_of_inside hin, hp⟩
  | idec win avail =>
    obtain ⟨r, hr⟩ := performIdec_answers hp (win.toList.take avail.toNat)
    exact .inl ⟨_, hr, hp⟩
  | idecAt d avail =>
    have hp' : (s.presented d (min 10 avail.toNat)).phase = .idle := (presented_phase s d _).trans hp
    obtain ⟨r, hr⟩ := performIdec_answers hp' (s.window d (min 10 avail.toNat))
    exact .inl ⟨_, hr, hp'⟩
  | encodeSeq xs base size => exact .inl ⟨_, rfl, rfl⟩
  | decodeSeq base limit => exact .inl ⟨_, rfl, rfl⟩
  | _ => exact .inl ⟨_, rfl, hp⟩

/-- A round of DecodeSeq goes on or stops with a result; it is never refused (R150, log 7). -/
theorem step_decoding_cases {s : State} {c e : Nat} {l : List Entry} (hp : s.phase = .decoding c e l) :
    ∃ t, step s = .next t ∧ (t.phase = .idle ∨ ∃ c' l', t.phase = .decoding c' e l') := by
  obtain ⟨hend, -, hround⟩ := decodeSeqFollowsIdec s c e l hp
  rcases Nat.lt_or_ge c e with hlt | hge
  · obtain ⟨win, n, -, hok, hfail⟩ := hround hlt
    by_cases hst : (idec s.config win (BitVec.ofNat 4 (min 10 (e - c)))).status = .ok
    · exact ⟨_, hok hst, .inr ⟨_, _, rfl⟩⟩
    · exact ⟨_, hfail hst, .inl rfl⟩
  · exact ⟨_, hend hge, .inl rfl⟩

/-! ### What a step can do -/

/-- The next operation is a commit outside the buffer: the coming round of EncodeSeq, or the oldest call. -/
def State.CommitsOutside (s : State) : Prop :=
  (∃ x xs e c j, s.phase = .encoding (x :: xs) e c j ∧
      s.land.commit c (ienc s.config x (BitVec.ofNat 4 (min 10 (e - c)))) = none) ∨
    (s.phase = .idle ∧ ∃ x cap d ks, (s.calls = .iencCommit x cap d :: ks ∨ s.calls = .otherCommit x cap d :: ks) ∧
      s.land.commit d (ienc s.config x cap) = none)

/-- Whether a commit takes place does not depend on the calls waiting. -/
theorem Call.CommitsOutside.toState {s : State} {k : Call} {ks : List Call} (hp : s.phase = .idle)
    (hk : s.calls = k :: ks) (h : k.CommitsOutside (s.land.withCalls ks)) : s.CommitsOutside := by
  obtain ⟨x, cap, d, hcall, hnone⟩ := h
  have hout := commit_eq_none.1 hnone
  refine .inr ⟨hp, x, cap, d, ks, ?_, commit_eq_none.2 hout⟩
  rw [hk]
  exact hcall.imp (congrArg (· :: ks)) (congrArg (· :: ks))

/-- A procedure that an honest call opens is honest. -/
theorem Call.honest.opens {k : Call} {size : Nat} (h : k.honest size) : k.opens.honest size := by
  cases k with
  | encodeSeq xs base sz => exact h
  | _ => trivial

/-- Everything a step can lead to, for the callers' duty: a next state whose procedure is honest when the state was, or the
refusal of a commit outside the buffer. -/
theorem step_cases (s : State) :
    (∃ t, step s = .next t ∧ (s.Honest → t.phase.honest s.bufSize)) ∨
      (s.CommitsOutside ∧ step s = .refused .commitOutsideBuffer) := by
  cases hp : s.phase with
  | encoding p e c j =>
    cases p with
    | nil => exact .inl ⟨_, step_encoding_nil hp, fun _ => trivial⟩
    | cons x xs =>
      have hstep := step_encoding_cons hp
      rcases encodeBody_cases x xs e c j s.land with ⟨-, hs⟩ | ⟨-, hnone, hs⟩ | ⟨-, u, -, hs⟩
      · exact .inl ⟨_, hstep.trans hs, fun _ => trivial⟩
      · exact .inr ⟨.inl ⟨x, xs, e, c, j, hp, hnone⟩, hstep.trans hs⟩
      · refine .inl ⟨_, hstep.trans hs, fun ⟨hphase, _⟩ => ?_⟩
        rw [hp] at hphase
        exact hphase
  | decoding c e l =>
    obtain ⟨t, ht, hidle | ⟨c', l', hdec⟩⟩ := step_decoding_cases hp
    · exact .inl ⟨t, ht, fun _ => hidle ▸ trivial⟩
    · exact .inl ⟨t, ht, fun _ => hdec ▸ trivial⟩
  | idle =>
    cases hk : s.calls with
    | nil => exact .inl ⟨_, step_idle_nil hp hk, fun ⟨hphase, _⟩ => hphase⟩
    | cons k ks =>
      have hstep := step_idle_cons hp hk
      rcases perform_cases k (s := s.land.withCalls ks) hp with ⟨t, ht, hopens⟩ | ⟨hout, ht⟩
      · refine .inl ⟨t, hstep.trans ht, fun ⟨_, hcalls⟩ => ?_⟩
        rw [hopens]
        exact (hcalls k (hk ▸ List.mem_cons_self)).opens
      · exact .inr ⟨hout.toState hp hk, hstep.trans ht⟩

/-- Settles O57, by the cases of a step. -/
theorem onlyCommitsStop : Obligations.OnlyCommitsStop := by
  intro s
  rcases step_cases s with ⟨t, ht, -⟩ | ⟨hout, hrefused⟩
  · exact .inl ⟨t, ht⟩
  · exact .inr ⟨hrefused, hout⟩

/-! ### Under the callers' duty (R253) -/

/-- The callers' duty rules out every commit outside the buffer. -/
theorem State.Honest.not_commitsOutside {s : State} (h : s.Honest) : ¬ s.CommitsOutside := by
  obtain ⟨hphase, hcalls⟩ := h
  rintro (⟨x, xs, e, c, j, hp, hnone⟩ | ⟨-, x, cap, d, ks, hk, hnone⟩)
  · have hregion : e ≤ s.bufSize := by
      rw [hp] at hphase
      exact hphase
    exact commit_in_region_ne_none (s := s.land) hregion x c hnone
  · have hcap : d + cap.toNat ≤ s.bufSize := by
      rcases hk with hk | hk <;> exact hcalls _ (hk ▸ List.mem_cons_self)
    obtain ⟨q, hq, hout⟩ := commit_eq_none.1 hnone
    exact Nat.not_lt.2 hout (ienc_writes_inside hcap q hq)

/-- No update of the model adds a call. -/
theorem Updates.calls_suffix {s t : State} (h : Updates s t) : t.calls <:+ s.calls := by
  induction h with
  | refl => exact List.suffix_rfl
  | present a n _ ih => simpa using ih
  | take _ hk ih => exact (hk ▸ List.suffix_cons _ _).trans ih
  | commit _ hu ih =>
    obtain ⟨-, rfl⟩ := commit_eq_some hu
    exact ih
  | land _ ih | phase _ _ ih | reply _ _ ih | launch _ _ ih => exact ih

/-- Settles O56: under the callers' duty the step is not refused, its next procedure is honest, and no call joins those that
wait. -/
theorem honestStepsComplete : Obligations.HonestStepsComplete := by
  intro s h
  rcases step_cases s with ⟨t, ht, hphase⟩ | ⟨hout, -⟩
  · refine ⟨⟨t, ht⟩, fun t' ht' => ?_⟩
    obtain rfl := Host.Outcome.next.inj (ht.symm.trans ht')
    have hsize := (configurationNeverChanges s t ht).2
    unfold State.Honest
    rw [hsize]
    exact ⟨hphase h, fun k hk => h.2 k ((step_updates ht).calls_suffix.subset hk)⟩
  · exact absurd hout h.not_commitsOutside

end Sys2Proof.Machine
end

section
/-! The decoder and the encoder undo each other (30_encoding.md sections 3 to 6), and the words that the spec writes
out (95_test_vectors.md section 2.7). -/

namespace Sys2Proof.Machine

/-- Settles O19: of its declared count, an encoding decodes to its instruction with the values truncated, and values that
fit are not changed by that. -/
theorem decodeOfEncode : Obligations.DecodeOfEncode := by
  intro c i rest h
  obtain ⟨hcount, hfit⟩ := wellFormed_iff.1 h
  rw [decode_encode_append hcount, clipped_of_valuesFit hfit]

/-- Settles O20, by what an accepting decoder has checked. -/
theorem encodeOfDecode : Obligations.EncodeOfDecode :=
  fun _ _ _ _ h => decode_ok h

/-- Settles O21: an accepted word is the encoding of a well-formed instruction before its rest; a refused one has modes
that no format variant has. -/
theorem decodeSpecWords : Obligations.DecodeSpecWords := by
  refine ⟨?f0, ?register, ?relativeAddress, ?registerConstant16, ?constant32AbsoluteAddress, ?unresolvedLabel,
    ?absentModeNonzero⟩
  case f0 => exact decodeOfEncode _ (.f0 0x00) [0x61] rfl
  case register => exact decodeOfEncode _ (.f1Register 0x01 5) [] rfl
  case relativeAddress => exact decodeOfEncode _ (.f1RelativeAddress 0x01 0xFFFFFFF6) [0x99] rfl
  case registerConstant16 => exact decodeOfEncode _ (.f2RegisterConstant16 0x02 1 0x1234) [] rfl
  case constant32AbsoluteAddress =>
    exact decodeOfEncode _ (.f2Constant32AbsoluteAddress 0x02 0x01020304 0xA0B0C0D0) [] rfl
  case unresolvedLabel => exact decode_of_refused_modes (pc := .two) rfl nofun rfl [0x05]
  case absentModeNonzero => exact decode_of_refused_modes (pc := .one) rfl nofun rfl [0x05]

end Sys2Proof.Machine
end
